-- ==== Sys2Proof/Word.lean ====
section
/-!
DEFINITION. The bytes of a frame, and the fixed-size table that the part's records are kept in
(00_scope "Indexing": twelve lines, eight filters, six circuits, ...).
-/

namespace Sys2Proof

/-- One byte of a frame (10 section 10.7). -/
abbrev Byte := BitVec 8

/-- A two-byte number of a frame (10 section 10.7). -/
abbrev Half := BitVec 16

/-- `n` cells of one type, one for each object of a numbered kind. -/
structure Table (n : Nat) (α : Type) where
  cells : List α
  size : cells.length = n
  deriving DecidableEq, Repr

namespace Table

variable {n : Nat} {α β : Type}

/-- The cell of object `i`. -/
def get (t : Table n α) (i : Fin n) : α :=
  t.cells.get (i.cast t.size.symm)

/-- The table with the cell of object `i` written. -/
def set (t : Table n α) (i : Fin n) (a : α) : Table n α :=
  ⟨t.cells.set i a, by rw [List.length_set]; exact t.size⟩

/-- The table with the cell of object `i` changed by `f`. -/
def upd (t : Table n α) (i : Fin n) (f : α → α) : Table n α :=
  t.set i (f (t.get i))

/-- The table whose cell `i` is `f i`. -/
def ofFn (f : Fin n → α) : Table n α :=
  ⟨List.ofFn f, List.length_ofFn⟩

/-- The table with `a` in every cell. -/
def fill (a : α) : Table n α :=
  ⟨List.replicate n a, List.length_replicate⟩

/-- Every cell changed by `f`, which is told the object. -/
def mapIdx (t : Table n α) (f : Fin n → α → β) : Table n β :=
  ofFn fun i => f i (t.get i)

end Table

/-- The byte `k` (0 the least significant) of a number. -/
def byteOf (v k : Nat) : Byte :=
  BitVec.ofNat 8 (v / 256 ^ k)

/-- A number as `w` bytes, most significant byte first (10 section 10.7). -/
def bytesOf : Nat → Nat → List Byte
  | 0, _ => []
  | w + 1, v => byteOf v w :: bytesOf w v

/-- The number that bytes spell, most significant byte first (10 section 10.7). -/
def numOf (bs : List Byte) : Nat :=
  bs.foldl (fun a b => a * 256 + b.toNat) 0

end Sys2Proof
end

