-- ==== Sys2Proof/Syntax.lean ====
section
/-!
DEFINITION. The commands of the block: one constructor for each row of spec/opcode_table.json.
The table gives no operands; they are taken from the rule each row names. A frame row carries the
fields of the frame after its integrity test (R3), a management row its tag and its raw argument
bytes as they stand in the frame (R161, 10 section 10.7).
-/

namespace Sys2Proof

/-- C1 to C6, F1 to F8, D1 to D12, S1 to S4, FI1 to FI8 and the reading slots, counted from 0
(00_scope "Indexing", R33). -/
abbrev CircuitIx := Fin 6
abbrev FilterIx := Fin 8
abbrev LineIx := Fin 12
abbrev SegIx := Fin 4
abbrev InputIx := Fin 8
abbrev SlotIx := Fin 22

/-- The six frame kinds (R2). -/
inductive FrameKind where
  | sample | echo | command | notice | mgmtReq | mgmtRsp
  deriving DecidableEq, Repr

/-- The five bus ports (R1). -/
inductive Port where
  | supervisor
  | segment (g : SegIx)
  deriving DecidableEq, Repr

/-- The commands, one constructor for each row of the table, in its order. -/
inductive Instr where
  -- resets (R137, R143)
  | powerOn
  | resetPin
  | restartReset
  -- frames (R3, R9-R12, R17, R18, R161)
  | frameDiscarded (port : Port) (bytes : List Byte)
  | foreignFrame (port : Port) (kind : FrameKind) (source destination : Byte)
  | misplacedStation (seg : SegIx) (kind : FrameKind) (source destination : Byte)
  | stationCommand (destination : Byte) (channel : Fin 8) (value : Half)
  | sample (seg : SegIx) (source : Byte) (channel : Fin 8) (value : Half) (quality : Byte)
  | echo (seg : SegIx) (source : Byte) (channel : Fin 8) (value : Half)
  | requestDiscarded (code tag : Byte)
  | unknownRequestCode (code tag : Byte)
  | transmitStart (port : Port)
  -- segment signals (R4)
  | signalLoss (seg : SegIx)
  | signalReturn (seg : SegIx)
  | lossTimerExpiry (seg : SegIx)
  | recoveryTimerExpiry (seg : SegIx)
  -- flow (R19, R29)
  | flowPulse (input : InputIx)
  | windowEnd
  | starvedLong (circuit : CircuitIx)
  -- readings (R39, R43, R44)
  | slotStale (slot : SlotIx)
  | underlyingStale (slot : SlotIx)
  | substituteExpiry (slot : SlotIx)
  -- lines and programmes (R63, R73, R91, R84, R83)
  | resumeTimerExpiry (line : LineIx)
  | confirmTimerExpiry (line : LineIx)
  | totaliserAddition (line : LineIx)
  | programmeStepEnd (line : LineIx)
  | batchCap (line : LineIx)
  -- filters (R96, R103, R111, R115, R129, R117, R133)
  | runHoursCount (filter : FilterIx)
  | holdOffExpiry (filter : FilterIx)
  | checkExpiry (filter : FilterIx)
  | serviceAttemptExpiry (filter : FilterIx)
  | travelTimerExpiry (filter : FilterIx)
  | dwellEnd (filter : FilterIx)
  | restoreLimit
  -- mode, clock, store, inputs (R145, R147, R148, R154, R166, R142, R68, R152)
  | livenessPeriodEnd
  | returnTimerExpiry
  | fallbackLimit
  | minuteChange
  | settingsWriteEnd
  | commitWriteEnd
  | plantStopAsserted
  | plantStopReleased
  | keyswitchChange (on : Bool)
  -- management requests (R161): the tag and the argument bytes
  | refresh (tag : Byte) (args : List Byte)
  | enterSupervised (tag : Byte) (args : List Byte)
  | enterHold (tag : Byte) (args : List Byte)
  | lock (tag : Byte) (args : List Byte)
  | release (tag : Byte) (args : List Byte)
  | commitCommissioning (tag : Byte) (args : List Byte)
  | restart (tag : Byte) (args : List Byte)
  | clearRecoveryCount (tag : Byte) (args : List Byte)
  | setClock (tag : Byte) (args : List Byte)
  | setField (tag : Byte) (args : List Byte)
  | getField (tag : Byte) (args : List Byte)
  | getState (tag : Byte) (args : List Byte)
  | storeSettings (tag : Byte) (args : List Byte)
  | setSubstitute (tag : Byte) (args : List Byte)
  | clearSubstitute (tag : Byte) (args : List Byte)
  | startProgramme (tag : Byte) (args : List Byte)
  | stopProgramme (tag : Byte) (args : List Byte)
  | backwashNow (tag : Byte) (args : List Byte)
  | abortBackwash (tag : Byte) (args : List Byte)
  | maskFilter (tag : Byte) (args : List Byte)
  | unmaskFilter (tag : Byte) (args : List Byte)
  | setLowest (tag : Byte) (args : List Byte)
  | clearFaultLine (tag : Byte) (args : List Byte)
  | clearFaultFilter (tag : Byte) (args : List Byte)
  | snapshot (tag : Byte) (args : List Byte)
  | readSnapshot (tag : Byte) (args : List Byte)
  | isolateSegment (tag : Byte) (args : List Byte)
  | restoreSegment (tag : Byte) (args : List Byte)
  | readConditions (tag : Byte) (args : List Byte)
  | clearConditions (tag : Byte) (args : List Byte)
  deriving DecidableEq, Repr

end Sys2Proof
end

