-- ==== Sys2Proof/Config.lean ====
section
/-!
DEFINITION. What is fixed for the part: its capacities and times, each from the rule named, and the
free value, which has no body: nothing in a proof can know what it is.
-/

namespace Sys2Proof.Config

/-- Places of a segment port's forwarded queue (R14) and of the supervisor port's (R16). -/
def forwardedPlaces : Nat := 16
/-- Places of a segment port's own queue (R15). -/
def ownPlaces : Nat := 24
/-- Places of the response queue, reservations included (R17). -/
def responsePlaces : Nat := 8
/-- Places of the notice queue (R17). -/
def noticePlaces : Nat := 32
/-- The loss timer of a LOST segment, in seconds (R4). -/
def lossSeconds : Nat := 2
/-- The recovery timer of a RECOVERING segment, in seconds (R4). -/
def recoverySeconds : Nat := 5
/-- The restore limit, in seconds (R132). -/
def restoreSeconds : Nat := 120
/-- The hold-off after an aborted backwash, in seconds (R103). -/
def holdOffSeconds : Nat := 600
/-- The longest settings write, in seconds (R166). -/
def writeSeconds : Nat := 4
/-- The counting window, in seconds (R19). -/
def windowSeconds : Nat := 2
/-- The highest window count (R20). -/
def pulseCap : Nat := 4095
/-- The address of the part (00_scope "Addresses and channels"). -/
def ownAddress : Byte := 121
/-- The highest valid address; 122 to 255 are invalid (00_scope, R3). -/
def lastAddress : Nat := 121
/-- The highest recovery count (R136). -/
def recoveryCap : Nat := 5

/-- The highest value of a slot's quantity (R33): FREE_CL 2000, PH 1400, DP 2000, levels 1000. -/
def slotMax (slot : Fin 22) : Nat :=
  if slot.val < 6 then 2000 else if slot.val < 12 then 1400
  else if slot.val < 20 then 2000 else 1000

/-- FREE VALUE (log entry 10): the CRC-16 of a frame's header and payload. The spec calls the check a
CRC-16 (R2, 10 section 10.7) and states no polynomial, start value or bit order. -/
opaque crc16 : List Byte → BitVec 16

end Sys2Proof.Config
end

