-- ==== Sys2Proof/Machine/State.lean ====
section
/-!
DEFINITION. The state of the block, one record for each of the manual's blocks (00_scope "Blocks"),
and the state right after a power-on of a part never started. All of it is plain data.
-/

namespace Sys2Proof.Machine

/-! ## Names -/

/-- The six modes (R135). -/
inductive Mode where
  | startup | commission | hold | supervised | fallback | lockout
  deriving DecidableEq, Repr

/-- The states of a segment (R4). -/
inductive SegState where
  | up | lost | isolated | recovering | forced
  deriving DecidableEq, Repr

/-- The flow classes, highest first (02 section 2.3). -/
inductive FlowClass where
  | full | reduced | low | none
  deriving DecidableEq, Repr

/-- The circulation state of a circuit (R30). -/
inductive Circulation where
  | run | stopped
  deriving DecidableEq, Repr

/-- The kinds of dosing line (R49). -/
inductive LineKind where
  | hypo | acid | coag
  deriving DecidableEq, Repr

/-- The states of a dosing line (R50). -/
inductive LineState where
  | disabled | stopped | dosing | inhibited | resuming | faulted
  deriving DecidableEq, Repr

/-- The owner of a line's request (R50). -/
inductive Source where
  | none | supervisor | programme
  deriving DecidableEq, Repr

/-- The terms of the admitted rate (R53). -/
inductive Term where
  | requested | maxRate | reducedFlow | blind
  deriving DecidableEq, Repr

/-- The fault reasons of a line (R50). -/
inductive LineFault where
  | noEcho | mismatch | rogue
  deriving DecidableEq, Repr

/-- The fault causes of a reading slot (R33). -/
inductive SlotFault where
  | cal | fault | range
  deriving DecidableEq, Repr

/-- The state a slot's samples give it (R33); SUBSTITUTE is told by the slot's substitute. -/
inductive SlotState where
  | absent | valid | stale | faulty (cause : SlotFault)
  deriving DecidableEq, Repr

/-- The active programme of a line (R80). -/
inductive Which where
  | a | b | shockA | shockB
  deriving DecidableEq, Repr

/-- The kinds of step (R78). -/
inductive StepKind where
  | rate | batch
  deriving DecidableEq, Repr

/-- The kinds of timetable entry (R157). -/
inductive EntryKind where
  | openHours | washWindow
  deriving DecidableEq, Repr

/-- The objects of an admission entry, in the order R162 codes them (R13). -/
inductive ObjKind where
  | doseLine | filterValves | backwashPump | circPump | pass | closed
  deriving DecidableEq, Repr

/-- The unlisted policy (R13). -/
inductive Policy where
  | pass | refuse
  deriving DecidableEq, Repr

/-- The stages of a backwash (R116). -/
inductive Stage where
  | isolate | scour | wash | settle | rinse | return
  deriving DecidableEq, Repr

/-- What a move of a backwash awaits (R117). -/
inductive MoveObject where
  | valves | pump
  deriving DecidableEq, Repr

/-- The fault reasons of a filter (R113). -/
inductive FilterFault where
  | noReturn | lost
  deriving DecidableEq, Repr

/-- The abort causes of a backwash (R123, R124). -/
inductive AbortCause where
  | supervisorAbort | starved | plantStop | lockout | noEcho | unreachable
  | supplyLow | sumpFull | readingLost
  deriving DecidableEq, Repr

/-- The lockout causes of the retained record (R136). -/
inductive LockCause where
  | recoveryLimit | fallbackTooLong | requested
  deriving DecidableEq, Repr

/-- The start causes (R136). -/
inductive StartCause where
  | powerOn | resetPin | restartRequest | commit
  deriving DecidableEq, Repr

/-- The management requests, one for each request code (10 section 10.7). -/
inductive Request where
  | refresh | enterSupervised | enterHold | lock | release | commitCommissioning | restart
  | clearRecoveryCount | setClock | setField | getField | getState | storeSettings
  | setSubstitute | clearSubstitute | startProgramme | stopProgramme | backwashNow
  | abortBackwash | maskFilter | unmaskFilter | setLowest | clearFault | snapshot
  | readSnapshot | isolateSegment | restoreSegment | readConditions | clearConditions
  deriving DecidableEq, Repr

/-- The results of a request (R161). -/
inductive Result where
  | done | busy | badMode | badArg | noEntry | duplicate | denied
  deriving DecidableEq, Repr

/-- The notice kinds (R169). -/
inductive NoticeKind where
  | refused | clamped | lineFault | programmeEnd | programmeOverridden | batchShort
  | flowChange | starvedLong | overrange | readingFault | substituteExpired
  | backwashGranted | backwashDone | backwashAborted | filterIneffective | filterFault
  | unrinsed | pumpUnconfirmed | segmentLost | segmentUp | modeChange | livenessLate
  | foreignFrame | misplacedStation
  deriving DecidableEq, Repr

/-- The object kinds of notices and of GET_STATE (10 section 10.7). -/
inductive ObjectKind where
  | port | segment | entry | key | line | circuit | flowInput | slot | filter | mode
  | programme | arbiter | sequencer | clock
  deriving DecidableEq, Repr

/-- The causes (10 section 10.7); a cause named in several places is one constructor. A discarded
frame's notice carries the frame's kind. -/
inductive Cause where
  | mode | badValue | disabledLine | faultedLine | lockout | plantStop | hold | circStop
  | excluded | held | unknownStation | unreachable | congested | owned | closedEntry | unlisted
  | backwashActive | supervisor
  | maxRate | reducedFlow | blind
  | noEcho | mismatch | rogue | noReturn | lost | completed | cap
  | full | reduced | low | none | saturated
  | cal | fault | range | stale | expired | cleared
  | dpUrgent | dp | hours | manual | ineffective | dpIgnored | supervisorAbort | supplyLow
  | sumpFull | readingLost | starved
  | signal | forced | up
  | notCommissioned | keyswitch | commissioned | lockoutFlag | recoveryLimit | request | early
  | silent | configBreach | returned | fallbackTooLong | requested | released
  | frame (kind : FrameKind)
  deriving DecidableEq, Repr

/-! ## Frames and queues -/

/-- A frame on the wire, without its check, which is computed when it is sent (R2). -/
structure Frame where
  destination : Byte
  source : Byte
  kind : FrameKind
  channel : Fin 8
  payload : List Byte
  deriving DecidableEq, Repr

/-- A COMMAND waiting on a segment port: its target key and its value (R14, R15). -/
structure Cmd where
  station : Nat
  channel : Nat
  value : Nat
  deriving DecidableEq, Repr

/-- A notice (R169). -/
structure Notice where
  kind : NoticeKind
  object : ObjectKind
  index : Nat
  cause : Cause
  value : Nat
  deriving DecidableEq, Repr

/-- A completed response (R161). The code is the request's as received. -/
structure Response where
  code : Byte
  tag : Byte
  result : Result
  data : List Byte
  deriving DecidableEq, Repr

/-- A segment port (R4, R14, R15, R18). `timer` is the running loss or recovery timer in whole seconds
of the timebase (log entry 4); `started` the frame its transmitter started last (log entry 13). -/
structure Segment where
  state : SegState
  timer : Option Nat
  forwarded : List Cmd
  own : List Cmd
  started : Option Frame
  deriving DecidableEq, Repr

/-- The Port Block: the segment ports and the supervisor port's three queues (R16, R17). -/
structure Ports where
  segments : Table 4 Segment
  responses : List Response
  notices : List Notice
  forwarded : List Frame
  started : Option Frame
  deriving DecidableEq, Repr

/-! ## Working tables (R162) -/

/-- An entry of the admission table (R13). -/
structure AdmissionEntry where
  enabled : Bool
  station : Nat
  channel : Nat
  object : ObjKind
  objectIndex : Nat
  deriving DecidableEq, Repr

/-- An entry of the sample map (R36). -/
structure MapEntry where
  enabled : Bool
  station : Nat
  channel : Nat
  slot : Nat
  deriving DecidableEq, Repr

/-- The settings of a slot (R34). -/
structure SlotSetting where
  minimum : Nat
  maximum : Nat
  staleLimit : Nat
  deriving DecidableEq, Repr

/-- The configured fields of a circuit (02 section 2.2). -/
structure CircuitCfg where
  enabled : Bool
  fullThreshold : Nat
  reducedThreshold : Nat
  minFilters : Nat
  starvedLimit : Nat
  deriving DecidableEq, Repr

/-- A programme range (R79): none where the first step is none. -/
structure Range where
  first : Option Nat
  count : Option Nat
  deriving DecidableEq, Repr

/-- The configured fields of a dosing line (R49). -/
structure LineCfg where
  enabled : Bool
  kind : LineKind
  circuit : CircuitIx
  injectionPoint : Nat
  maxRate : Nat
  reducedFraction : Nat
  blindRate : Nat
  limit : Nat
  hysteresis : Nat
  resumeDelay : Nat
  confirmLimit : Nat
  progA : Range
  progB : Range
  deriving DecidableEq, Repr

/-- The configured fields of a filter (R94). -/
structure FilterCfg where
  assigned : Bool
  circuit : CircuitIx
  dpLimit : Nat
  dpUrgentLimit : Nat
  dpHysteresis : Nat
  hoursLimit : Nat
  scourTime : Nat
  washTime : Nat
  settleTime : Nat
  rinseTime : Nat
  travelLimit : Nat
  checkDelay : Nat
  deriving DecidableEq, Repr

/-- A step of the step store (R78). -/
structure StepRec where
  kind : StepKind
  rate : Nat
  duration : Nat
  volume : Option Nat
  loop : Bool
  deriving DecidableEq, Repr

/-- A timetable entry (R157); the sets are masks, lowest bit for the first member. -/
structure TimeEntry where
  enabled : Bool
  days : BitVec 7
  startMinute : Nat
  endMinute : Nat
  circuits : BitVec 6
  kind : EntryKind
  deriving DecidableEq, Repr

/-- The parameters (R162): liveness period (R144), recovery limit (R139), fallback limit (R148),
unlisted policy (R13) and the four tank levels (R104). -/
structure Params where
  livenessPeriod : Nat
  recoveryLimit : Nat
  fallbackLimit : Nat
  unlisted : Policy
  supplyStart : Nat
  supplyStop : Nat
  sumpStart : Nat
  sumpStop : Nat
  deriving DecidableEq, Repr

/-- The working tables and the parameters (R162). -/
structure Tables where
  directory : Table 120 (Option SegIx)
  admission : Table 48 AdmissionEntry
  sampleMap : Table 64 MapEntry
  slots : Table 22 SlotSetting
  flowInputs : Table 8 (Option CircuitIx)
  circuits : Table 6 CircuitCfg
  lines : Table 12 LineCfg
  filters : Table 8 FilterCfg
  steps : Table 256 StepRec
  timetable : Table 16 TimeEntry
  params : Params
  deriving DecidableEq, Repr

/-- The defaults of the tables with an invalid store (R8, R13, R36, R34, R21, R22, R49, R94, R78, R157,
R144, R139, R148, R104). The key, object and slot of a disabled entry are log entry 9. -/
def Tables.defaults : Tables where
  directory := .fill none
  admission := .fill ⟨false, 0, 0, .doseLine, 0⟩
  sampleMap := .fill ⟨false, 0, 0, 0⟩
  slots := .ofFn fun i => ⟨0, Config.slotMax i, 60⟩
  flowInputs := .fill none
  circuits := .fill ⟨false, 0, 0, 0, 60⟩
  lines := .fill ⟨false, .hypo, 0, 1, 0, 50, 0, 0, 0, 60, 10, ⟨none, none⟩, ⟨none, none⟩⟩
  filters := .fill ⟨false, 0, 800, 1200, 50, 0, 120, 300, 60, 120, 60, 300⟩
  steps := .fill ⟨.rate, 0, 1, none, false⟩
  timetable := .fill ⟨false, 0, 0, 1440, 0, .openHours⟩
  params := ⟨10, 3, 24, .refuse, 600, 300, 300, 800⟩

/-! ## Flow Unit and Reading Table -/

/-- A flow input (02 section 2.1). -/
structure FlowInput where
  windowCount : Nat
  lastCount : Nat
  overrange : Bool
  deriving DecidableEq, Repr

/-- The live fields of a circuit (02 section 2.2). `rising` is the rising class while the rising count
is 1 and none while it is 0 (R26). -/
structure Circuit where
  flowSum : Nat
  measured : FlowClass
  flowClass : FlowClass
  rising : Option FlowClass
  circulation : Circulation
  starvedTimer : Nat
  starvedReported : Bool
  deriving DecidableEq, Repr

/-- The Flow Unit; `windowSeconds` counts the window in progress (R19). -/
structure Flow where
  windowSeconds : Nat
  inputs : Table 8 FlowInput
  circuits : Table 6 Circuit
  deriving DecidableEq, Repr

/-- A value with its age (R33): both present or both none. -/
structure Held where
  value : Nat
  age : Nat
  deriving DecidableEq, Repr

/-- What a slot's samples give: its own fields, or its underlying fields while a substitute stands
(R33, R43). -/
structure Reading where
  state : SlotState
  held : Option Held
  deriving DecidableEq, Repr

/-- A substitute: its value and its seconds remaining (R42). -/
structure Substitute where
  value : Nat
  remaining : Nat
  deriving DecidableEq, Repr

/-- A reading slot: in SUBSTITUTE exactly while `sub` is present (R33). -/
structure Slot where
  base : Reading
  sub : Option Substitute
  deriving DecidableEq, Repr

/-! ## Dose Gate and Programme Runner -/

/-- The inhibit causes of a line, each present or absent (R50). -/
structure Causes where
  flow : Bool
  limit : Bool
  backwash : Bool
  unreachable : Bool
  circStop : Bool
  plantStop : Bool
  hold : Bool
  lockout : Bool
  deriving DecidableEq, Repr

/-- CONFIRMED, or AWAITING with its confirm timer; the timer does not run in FAULTED (R50, R74). -/
inductive Confirmation where
  | confirmed
  | awaiting (timer : Option Nat)
  deriving DecidableEq, Repr

/-- The live fields of a line (R50) and the binding term of its last recompute (R77). -/
structure Line where
  state : LineState
  source : Source
  requested : Nat
  admitted : Nat
  confirmed : Nat
  confirmation : Confirmation
  lastEcho : Option Nat
  causes : Causes
  resume : Nat
  fault : Option LineFault
  binding : Term
  deriving DecidableEq, Repr

/-- Whole ml and a fraction in units of 1/3600 ml (R80). -/
structure Batch where
  ml : Nat
  fraction : Nat
  deriving DecidableEq, Repr

/-- An active programme (R80). -/
structure Prog where
  which : Which
  position : Nat
  remaining : Nat
  batch : Option Batch
  paused : Bool
  deriving DecidableEq, Repr

/-- A totaliser: whole ml, which wraps at 2^32, and units of 1/3600 ml (R91). -/
structure Totaliser where
  ml : BitVec 32
  fraction : Nat
  deriving DecidableEq, Repr

/-- A snapshot latch (R92). -/
structure Latch where
  total : BitVec 32
  state : LineState
  admitted : Nat
  confirmed : Nat
  source : Source
  deriving DecidableEq, Repr

/-- The Programme Runner. -/
structure Runner where
  progs : Table 12 (Option Prog)
  totals : Table 12 Totaliser
  latches : Table 12 (Option Latch)
  deriving DecidableEq, Repr

/-! ## Backwash Arbiter and Sequencer -/

/-- The request set of a filter (R95). -/
structure RequestSet where
  dp : Bool
  dpUrgent : Bool
  hours : Bool
  manual : Bool
  deriving DecidableEq, Repr

/-- The Arbiter's fields of a filter (R95); the run hours are in the retained record. -/
structure ArbFilter where
  requests : RequestSet
  masked : Bool
  rank : Nat
  holdOff : Option Nat
  check : Option Nat
  ineffective : Nat
  dpIgnored : Bool
  deriving DecidableEq, Repr

/-- The Backwash Arbiter: FREE, or BUSY with a filter (R95). -/
structure Arbiter where
  busy : Option FilterIx
  filters : Table 8 ArbFilter
  deriving DecidableEq, Repr

/-- The step of a stage (R117). -/
inductive BwStep where
  | move (object : MoveObject) (awaited : Nat) (remaining : Nat)
  | dwell (remaining : Nat)
  deriving DecidableEq, Repr

/-- A backwash in flight (R113). `abort` is the abort cause with the abort stage. -/
structure Backwash where
  stage : Stage
  step : BwStep
  abort : Option (AbortCause × Stage)
  wetted : Bool
  rinsed : Bool
  elapsed : Nat
  deriving DecidableEq, Repr

/-- The state of a filter, with the fields that are present in it only (R113). -/
inductive FilterState where
  | unused
  | inService
  | backwash (b : Backwash)
  | faulted (reason : FilterFault)
  deriving DecidableEq, Repr

/-- The Sequencer's fields of a filter (R113). -/
structure SeqFilter where
  state : FilterState
  attempt : Option Nat
  unrinsed : Bool
  lastEcho : Option Nat
  deriving DecidableEq, Repr

/-- The start-up restore (R132, R133): whether it runs, the seconds left of its limit, the segments that
have been UP since the reset, and whether the backwash pump's object is settled. -/
structure Restore where
  running : Bool
  remaining : Nat
  seenUp : Table 4 Bool
  pumpSettled : Bool
  deriving DecidableEq, Repr

/-- The Backwash Sequencer (R113). -/
structure Sequencer where
  filters : Table 8 SeqFilter
  pumpRun : Bool
  lastPumpEcho : Option Nat
  restore : Restore
  deriving DecidableEq, Repr

/-! ## Mode Controller, Clock and Management Unit -/

/-- Liveness while SUPERVISED (R145); the period is the one in force since it started (R144). -/
structure Liveness where
  period : Nat
  elapsed : Nat
  late : Bool
  deriving DecidableEq, Repr

/-- The fallback in progress (R146-R148): its timer and return timer in seconds, the limit (hours) and
the period that stood at its start. -/
structure Fallback where
  timer : Nat
  limitHours : Nat
  returnCount : Nat
  returnTimer : Option Nat
  period : Nat
  deriving DecidableEq, Repr

/-- The mode, with the fields that run in it only (R137, R140, R149). -/
inductive ModeState where
  | startup
  | commission
  | hold
  | supervised (l : Liveness)
  | fallback (f : Fallback)
  | lockout
  deriving DecidableEq, Repr

/-- The run hours of a filter (R95, R96). -/
structure RunHours where
  hours : Nat
  seconds : Nat
  deriving DecidableEq, Repr

/-- The retained record (R136). -/
structure Retained where
  commissioned : Bool
  lockoutFlag : Bool
  lockoutCause : Option LockCause
  recoveryCount : Nat
  startCause : StartCause
  runHours : Table 8 RunHours
  deriving DecidableEq, Repr

/-- The Mode Controller; `restart` is the start cause of a pending restart (R143). -/
structure ModeBlock where
  state : ModeState
  restart : Option StartCause
  retained : Retained
  deriving DecidableEq, Repr

/-- The clock and the flags (R154, R159). -/
structure Clock where
  day : Nat
  minute : Nat
  second : Nat
  valid : Bool
  openFlags : Table 6 Bool
  washFlags : Table 6 Bool
  deriving DecidableEq, Repr

/-- The latched conditions (R168). -/
structure Conditions where
  settingsInvalid : Bool
  noticesDropped : Bool
  responsesDropped : Bool
  spCongested : Bool
  livenessLate : Bool
  deriving DecidableEq, Repr

/-- A write of the settings store in flight (R166, R142): whether COMMIT_COMMISSIONING asked for it,
the request's tag, and the whole seconds left of its 4. -/
structure Write where
  commit : Bool
  tag : Byte
  left : Nat
  deriving DecidableEq, Repr

/-- The settings store (R166): its valid mark and its copy of the tables. -/
structure Store where
  valid : Bool
  tables : Tables
  deriving DecidableEq, Repr

/-- The Management Unit (R166-R168). -/
structure Mgmt where
  conditions : Conditions
  store : Store
  write : Option Write
  deriving DecidableEq, Repr

/-- The hardwired lines (00_scope): the two inputs, the permit outputs and the lockout output. -/
structure Pins where
  plantStop : Bool
  keyswitch : Bool
  permits : Table 12 Bool
  pb : Bool
  lockout : Bool
  deriving DecidableEq, Repr

/-- No command of the block stops with a fault: the spec names no condition that stops the block. -/
inductive Fault where
  deriving DecidableEq, Repr

/-- Why a command has no meaning. -/
inductive Refusal where
  /-- Raised by an arm of `exec` for a row that has no meaning yet; no arm raises it. Safe. -/
  | notModelled (mnemonic : String)
  deriving DecidableEq, Repr

/-- The state of the block. `pending` is the queue of waiting commands, first in, first out. -/
structure State where
  pending : List Instr
  pins : Pins
  ports : Ports
  tables : Tables
  mgmt : Mgmt
  flow : Flow
  slots : Table 22 Slot
  gate : Table 12 Line
  runner : Runner
  arbiter : Arbiter
  seq : Sequencer
  mode : ModeBlock
  clock : Clock
  deriving DecidableEq, Repr

/-- No inhibit cause. -/
def Causes.empty : Causes :=
  ⟨false, false, false, false, false, false, false, false⟩

/-- A disabled line after a reset (R52). -/
def Line.atReset : Line :=
  ⟨.disabled, .none, 0, 0, 0, .confirmed, none, Causes.empty, 0, none, .requested⟩

/-- A circuit after a reset (R26, R28, R30). -/
def Circuit.atReset : Circuit :=
  ⟨0, .none, .none, none, .run, 0, false⟩

/-- A filter of the Arbiter after a reset: F1 at rank 7 down to F8 at rank 0 (R95). -/
def ArbFilter.atReset (i : FilterIx) : ArbFilter :=
  ⟨⟨false, false, false, false⟩, false, 7 - i.val, none, none, 0, false⟩

/-- A segment after a reset (R4). -/
def Segment.atReset : Segment :=
  ⟨.recovering, some Config.recoverySeconds, [], [], none⟩

/-- The notice of the start-up decision on a part never commissioned (R135, R138). -/
def startNotice : Notice :=
  ⟨.modeChange, .mode, 1, .notCommissioned, 0⟩

/-- The machine right after a power-on of a part never started: the store is invalid (R167), nothing
is restored, so the start-up decision is taken in the reset event (R133) and goes to COMMISSION with
its notice (R138). The two inputs are released and off (log entry 8). -/
def State.reset : State where
  pending := []
  pins := ⟨false, false, .fill false, false, false⟩
  ports := ⟨.fill Segment.atReset, [], [startNotice], [], none⟩
  tables := Tables.defaults
  mgmt := ⟨⟨true, false, false, false, false⟩, ⟨false, Tables.defaults⟩, none⟩
  flow := ⟨0, .fill ⟨0, 0, false⟩, .fill Circuit.atReset⟩
  slots := .fill ⟨⟨.absent, none⟩, none⟩
  gate := .fill Line.atReset
  runner := ⟨.fill none, .fill ⟨0, 0⟩, .fill none⟩
  arbiter := ⟨none, .ofFn ArbFilter.atReset⟩
  seq := ⟨.fill ⟨.unused, none, false, none⟩, false, none,
    ⟨false, Config.restoreSeconds, .fill false, true⟩⟩
  mode := ⟨.commission, none, ⟨false, false, none, 0, .powerOn, .fill ⟨0, 0⟩⟩⟩
  clock := ⟨0, 0, 0, false, .fill true, .fill false⟩

end Sys2Proof.Machine
end

