-- ==== Sys2Proof/WellFormed.lean ====
section
/-!
DEFINITION. Which command terms a sender can send: addresses a frame can carry past its integrity
test (R3), the kinds a row is about (R9, R11), argument bytes that fit a MGMT_REQ payload of 2 to 12
bytes (R2, 10 section 10.7) and request codes of the row (10 section 10.7). `exec` does not rest on
it: it is total on every term.
-/

namespace Sys2Proof

/-- An address 0 to 121 (R2, R3). -/
def Byte.isAddress (b : Byte) : Bool :=
  decide (b.toNat ≤ Config.lastAddress)

/-- A station address 1 to 120 (00_scope). -/
def Byte.isStation (b : Byte) : Bool :=
  decide (1 ≤ b.toNat ∧ b.toNat ≤ 120)

/-- A code of section 10.7, 1 to 29. -/
def Byte.isRequestCode (b : Byte) : Bool :=
  decide (1 ≤ b.toNat ∧ b.toNat ≤ 29)

/-- The frame is one that R9 (supervisor port) or R11 (segment port) discards with FOREIGN_FRAME by
its kind, source and destination alone. -/
def isForeign (port : Port) (kind : FrameKind) (source destination : Byte) : Bool :=
  match port with
  | .supervisor =>
    source != 0 ||
      match kind with
      | .command => !destination.isStation
      | .mgmtReq => destination != Config.ownAddress
      | .sample | .echo | .notice | .mgmtRsp => true
  | .segment _ =>
    match kind with
    | .sample | .echo => destination != 0
    | .command | .mgmtReq => true
    | .notice | .mgmtRsp => false

/-- The command is one a sender can send. -/
def Instr.wellFormed : Instr → Bool
  | .frameDiscarded _ bytes => decide (bytes.length ≤ 255 + 6)
  | .foreignFrame port kind src dst =>
    src.isAddress && dst.isAddress && isForeign port kind src dst
  | .misplacedStation _ _ src dst => src.isAddress && dst.isAddress
  | .stationCommand dst _ _ => dst.isStation
  | .sample _ src _ _ _ => src.isStation
  | .echo _ src _ _ => src.isStation
  | .requestDiscarded _ _ => true
  | .unknownRequestCode code _ => !code.isRequestCode
  | .powerOn | .resetPin | .restartReset | .transmitStart _
  | .signalLoss _ | .signalReturn _ | .lossTimerExpiry _ | .recoveryTimerExpiry _
  | .flowPulse _ | .windowEnd | .starvedLong _
  | .slotStale _ | .underlyingStale _ | .substituteExpiry _
  | .resumeTimerExpiry _ | .confirmTimerExpiry _ | .totaliserAddition _
  | .programmeStepEnd _ | .batchCap _
  | .runHoursCount _ | .holdOffExpiry _ | .checkExpiry _ | .serviceAttemptExpiry _
  | .travelTimerExpiry _ | .dwellEnd _ | .restoreLimit
  | .livenessPeriodEnd | .returnTimerExpiry | .fallbackLimit | .minuteChange
  | .settingsWriteEnd | .commitWriteEnd
  | .plantStopAsserted | .plantStopReleased | .keyswitchChange _ => true
  | .refresh _ args | .enterSupervised _ args | .enterHold _ args | .lock _ args
  | .release _ args | .commitCommissioning _ args | .restart _ args
  | .clearRecoveryCount _ args | .setClock _ args | .setField _ args | .getField _ args
  | .getState _ args | .storeSettings _ args | .setSubstitute _ args
  | .clearSubstitute _ args | .startProgramme _ args | .stopProgramme _ args
  | .backwashNow _ args | .abortBackwash _ args | .maskFilter _ args | .unmaskFilter _ args
  | .setLowest _ args | .clearFaultLine _ args | .clearFaultFilter _ args | .snapshot _ args
  | .readSnapshot _ args | .isolateSegment _ args | .restoreSegment _ args
  | .readConditions _ args | .clearConditions _ args => decide (args.length ≤ 10)

end Sys2Proof
end

