-- ==== Sys2Proof/Machine/Operands.lean ====
section
/-!
DEFINITION. Reading the operands: the records a command or a rule names, found through the directory
(R8) and the admission table (R12, R13); the codes of section 10.7; and the bytes of a frame with the
integrity test of R3.
-/

namespace Sys2Proof.Machine

/-! ## Names of objects -/

/-- The FREE_CL slot of a circuit (R33). -/
def freeClSlot (c : CircuitIx) : SlotIx := ⟨c.val, by omega⟩
/-- The PH slot of a circuit (R33). -/
def phSlot (c : CircuitIx) : SlotIx := ⟨6 + c.val, by omega⟩
/-- The DP slot of a filter (R33, R97). -/
def dpSlot (f : FilterIx) : SlotIx := ⟨12 + f.val, by omega⟩
/-- The BALANCE_LEVEL slot (R33). -/
def balanceSlot : SlotIx := 20
/-- The SUMP_LEVEL slot (R33). -/
def sumpSlot : SlotIx := 21

/-- The object numbered `n` from `lo`, if `n` is in the range of a table of `count` objects. -/
def ixFrom (lo count n : Nat) : Option (Fin count) :=
  if h : lo ≤ n ∧ n - lo < count then some ⟨n - lo, h.2⟩ else none

/-- The mode (R135). -/
def ModeState.mode : ModeState → Mode
  | .startup => .startup
  | .commission => .commission
  | .hold => .hold
  | .supervised _ => .supervised
  | .fallback _ => .fallback
  | .lockout => .lockout

/-- The mode the part stands in (R135). -/
def State.modeNow (s : State) : Mode := s.mode.state.mode

/-! ## Directory and admission table -/

/-- The segment the directory gives for a station, none for ABSENT or no entry (R8). -/
def State.segOf (s : State) (station : Nat) : Option SegIx :=
  match ixFrom 1 120 station with
  | some k => s.tables.directory.get k
  | none => none

/-- The state of a segment (R4). -/
def State.segState (s : State) (g : SegIx) : SegState := (s.ports.segments.get g).state

/-- The enabled admission entry whose key is (station, channel) (R12, R13). -/
def State.lookupKey (s : State) (station channel : Nat) : Option (Fin 48) :=
  (List.finRange 48).find? fun k =>
    let e := s.tables.admission.get k
    e.enabled && e.station == station && e.channel == channel

/-- The enabled admission entry whose object is `kind` with index `index` (R49, R94, R116). -/
def State.findObject (s : State) (kind : ObjKind) (index : Nat) : Option (Fin 48) :=
  (List.finRange 48).find? fun k =>
    let e := s.tables.admission.get k
    e.enabled && e.object == kind && e.objectIndex == index

/-- The entry of line Dn's pump (R49). -/
def State.lineEntry (s : State) (i : LineIx) : Option (Fin 48) :=
  s.findObject .doseLine (i.val + 1)
/-- The entry of filter Fn's valve set (R94). -/
def State.valveEntry (s : State) (f : FilterIx) : Option (Fin 48) :=
  s.findObject .filterValves (f.val + 1)
/-- The entry of the backwash pump (R116). -/
def State.pumpEntry (s : State) : Option (Fin 48) :=
  s.findObject .backwashPump 0

/-- The segment of an entry's station (R7, R8). -/
def State.segOfEntry (s : State) (k : Option (Fin 48)) : Option SegIx :=
  k.bind fun k => s.segOf (s.tables.admission.get k).station

/-- A segment state that is cut off: ISOLATED, FORCED or RECOVERING (R7). -/
def SegState.cutOff : SegState → Bool
  | .isolated | .forced | .recovering => true
  | .up | .lost => false

/-- The entry's station lies on a segment that is cut off, or on none (R67). -/
def State.entryCutOff (s : State) (k : Option (Fin 48)) : Bool :=
  match s.segOfEntry k with
  | some g => (s.segState g).cutOff
  | none => true

/-- The entry's station lies on a segment that is UP (R105). -/
def State.entryUp (s : State) (k : Option (Fin 48)) : Bool :=
  match s.segOfEntry k with
  | some g => s.segState g == .up
  | none => false

/-- The enabled sample map entry whose key is (station, channel) names this slot (R37). -/
def State.lookupSlot (s : State) (station channel : Nat) : Option SlotIx :=
  ((List.finRange 64).find? fun k =>
    let e := s.tables.sampleMap.get k
    e.enabled && e.station == station && e.channel == channel).bind
      fun k => ixFrom 0 22 (s.tables.sampleMap.get k).slot

/-! ## Programmes -/

/-- The range a programme runs (R80): A and SHOCK_A run range A, B and SHOCK_B range B. -/
def LineCfg.range (c : LineCfg) : Which → Range
  | .a | .shockA => c.progA
  | .b | .shockB => c.progB

/-- First step and step count of a range, none if the line has no such range (R79). A first step whose count
was never written makes no range until one is: the model's choice (log entry 9). -/
def Range.steps (r : Range) : Option (Nat × Nat) :=
  match r.first, r.count with
  | some f, some n => some (f, n)
  | _, _ => none

/-- A shock programme (R89). -/
def Which.isShock : Which → Bool
  | .shockA | .shockB => true
  | .a | .b => false

/-- The store index of a step of a line's programme: first step plus position (R80). -/
def State.stepIndex (s : State) (i : LineIx) (w : Which) (position : Nat) : Nat :=
  match ((s.tables.lines.get i).range w).steps with
  | some (f, _) => f + position
  | none => position

/-- The step at a store index (R78); a range never passes index 255 (R79). -/
def State.stepAt (s : State) (index : Nat) : StepRec :=
  s.tables.steps.get (Fin.ofNat 256 index)

/-- The step of a line's programme in progress (R80). -/
def State.stepOf (s : State) (i : LineIx) (p : Prog) : StepRec :=
  s.stepAt (s.stepIndex i p.which p.position)

/-! ## The filter in BACKWASH -/

/-- The backwash a filter is in, if it is in one (R113). -/
def FilterState.backwash? : FilterState → Option Backwash
  | .backwash b => some b
  | .unused | .inService | .faulted _ => none

/-- The backwash of filter `f`, if it is in BACKWASH. -/
def State.backwashOf (s : State) (f : FilterIx) : Option Backwash :=
  (s.seq.filters.get f).state.backwash?

/-- Some filter is in BACKWASH (R116, R164). -/
def State.anyBackwash (s : State) : Bool :=
  (List.finRange 8).any fun f => (s.backwashOf f).isSome

/-- A filter whose configured circuit is `c` is in BACKWASH (R71, R164). -/
def State.backwashOn (s : State) (c : CircuitIx) : Bool :=
  (List.finRange 8).any fun f => (s.tables.filters.get f).circuit == c && (s.backwashOf f).isSome

/-! ## Codes (10 section 10.7) -/

/-- The code of a frame kind (10 section 10.7). -/
def frameCode : FrameKind → Nat
  | .sample => 1 | .echo => 2 | .command => 3 | .notice => 4 | .mgmtReq => 5 | .mgmtRsp => 6

/-- The kind of a kind code (R2, R3). -/
def frameKindOf : Nat → Option FrameKind
  | 1 => some .sample | 2 => some .echo | 3 => some .command
  | 4 => some .notice | 5 => some .mgmtReq | 6 => some .mgmtRsp
  | _ => none

def Mode.number : Mode → Nat
  | .startup => 0 | .commission => 1 | .hold => 2 | .supervised => 3 | .fallback => 4
  | .lockout => 5

def Stage.number : Stage → Nat
  | .isolate => 1 | .scour => 2 | .wash => 3 | .settle => 4 | .rinse => 5 | .return => 6

def ObjectKind.code : ObjectKind → Nat
  | .port => 1 | .segment => 2 | .entry => 3 | .key => 4 | .line => 5 | .circuit => 6
  | .flowInput => 7 | .slot => 8 | .filter => 9 | .mode => 10 | .programme => 11
  | .arbiter => 12 | .sequencer => 13 | .clock => 14

def Result.code : Result → Nat
  | .done => 0 | .busy => 1 | .badMode => 2 | .badArg => 3 | .noEntry => 4 | .duplicate => 5
  | .denied => 6

def NoticeKind.code : NoticeKind → Nat
  | .refused => 1 | .clamped => 2 | .lineFault => 3 | .programmeEnd => 4
  | .programmeOverridden => 5 | .batchShort => 6 | .flowChange => 7 | .starvedLong => 8
  | .overrange => 9 | .readingFault => 10 | .substituteExpired => 11 | .backwashGranted => 12
  | .backwashDone => 13 | .backwashAborted => 14 | .filterIneffective => 15
  | .filterFault => 16 | .unrinsed => 17 | .pumpUnconfirmed => 18 | .segmentLost => 19
  | .segmentUp => 20 | .modeChange => 21 | .livenessLate => 22 | .foreignFrame => 23
  | .misplacedStation => 24

def Request.code : Request → Nat
  | .refresh => 1 | .enterSupervised => 2 | .enterHold => 3 | .lock => 4 | .release => 5
  | .commitCommissioning => 6 | .restart => 7 | .clearRecoveryCount => 8 | .setClock => 9
  | .setField => 10 | .getField => 11 | .getState => 12 | .storeSettings => 13
  | .setSubstitute => 14 | .clearSubstitute => 15 | .startProgramme => 16
  | .stopProgramme => 17 | .backwashNow => 18 | .abortBackwash => 19 | .maskFilter => 20
  | .unmaskFilter => 21 | .setLowest => 22 | .clearFault => 23 | .snapshot => 24
  | .readSnapshot => 25 | .isolateSegment => 26 | .restoreSegment => 27
  | .readConditions => 28 | .clearConditions => 29

/-- The request code as the byte of a frame. -/
def Request.byte (r : Request) : Byte := BitVec.ofNat 8 r.code

def Cause.code : Cause → Nat
  | .mode => 1 | .badValue => 2 | .disabledLine => 3 | .faultedLine => 4 | .lockout => 5
  | .plantStop => 6 | .hold => 7 | .circStop => 8 | .excluded => 9 | .held => 10
  | .unknownStation => 11 | .unreachable => 12 | .congested => 13 | .owned => 14
  | .closedEntry => 15 | .unlisted => 16 | .backwashActive => 17 | .supervisor => 18
  | .maxRate => 20 | .reducedFlow => 21 | .blind => 22
  | .noEcho => 30 | .mismatch => 31 | .rogue => 32 | .noReturn => 33 | .lost => 34
  | .completed => 35 | .cap => 36
  | .full => 40 | .reduced => 41 | .low => 42 | .none => 43 | .saturated => 44
  | .cal => 50 | .fault => 51 | .range => 52 | .stale => 53 | .expired => 54 | .cleared => 55
  | .dpUrgent => 60 | .dp => 61 | .hours => 62 | .manual => 63 | .ineffective => 64
  | .dpIgnored => 65 | .supervisorAbort => 66 | .supplyLow => 67 | .sumpFull => 68
  | .readingLost => 69 | .starved => 70
  | .signal => 80 | .forced => 81 | .up => 82
  | .notCommissioned => 90 | .keyswitch => 91 | .commissioned => 92 | .lockoutFlag => 93
  | .recoveryLimit => 94 | .request => 95 | .early => 96 | .silent => 97 | .configBreach => 98
  | .returned => 99 | .fallbackTooLong => 100 | .requested => 101 | .released => 102
  | .frame k => frameCode k

/-- The cause that names a flow class (R27, R29). -/
def FlowClass.cause : FlowClass → Cause
  | .full => .full | .reduced => .reduced | .low => .low | .none => .none

/-- The cause that names a term of R53; a cause named in several places has one code (10 section
10.7). -/
def Term.cause : Term → Cause
  | .requested => .requested | .maxRate => .maxRate | .reducedFlow => .reducedFlow
  | .blind => .blind

def LineFault.cause : LineFault → Cause
  | .noEcho => .noEcho | .mismatch => .mismatch | .rogue => .rogue

def FilterFault.cause : FilterFault → Cause
  | .noReturn => .noReturn | .lost => .lost

def SlotFault.cause : SlotFault → Cause
  | .cal => .cal | .fault => .fault | .range => .range

def AbortCause.cause : AbortCause → Cause
  | .supervisorAbort => .supervisorAbort | .starved => .starved | .plantStop => .plantStop
  | .lockout => .lockout | .noEcho => .noEcho | .unreachable => .unreachable
  | .supplyLow => .supplyLow | .sumpFull => .sumpFull | .readingLost => .readingLost

def LockCause.cause : LockCause → Cause
  | .recoveryLimit => .recoveryLimit | .fallbackTooLong => .fallbackTooLong
  | .requested => .requested

/-! ## Frames -/

/-- Header and payload of a frame as bytes (10 section 10.7). -/
def Frame.body (f : Frame) : List Byte :=
  [f.destination, f.source, BitVec.ofNat 8 (frameCode f.kind * 16 + f.channel.val),
    BitVec.ofNat 8 f.payload.length] ++ f.payload

/-- A frame as it is sent, with the check the part computes for it (R2). -/
def Frame.wire (f : Frame) : List Byte :=
  f.body ++ bytesOf 2 (Config.crc16 f.body).toNat

/-- The payload length is one the kind may have (R3, 10 section 10.7). R3 fixes SAMPLE, ECHO and
COMMAND, and a MGMT_REQ of at least 2 bytes; every payload is at most 12. -/
def frameLengthOk (k : FrameKind) (n : Nat) : Bool :=
  decide (n ≤ 12) &&
    match k with
    | .sample => n == 3
    | .echo | .command => n == 2
    | .mgmtReq => decide (2 ≤ n)
    | .notice | .mgmtRsp => true

/-- The integrity test of R3 on the bytes received: the frame they carry, or none where it is
discarded. The channel is the low three bits of the kind byte, its bit 3 is reserved. -/
def Frame.ofWire (bytes : List Byte) : Option Frame :=
  match bytes with
  | dst :: src :: kc :: len :: rest =>
    let payload := rest.take len.toNat
    match frameKindOf (kc.toNat / 16) with
    | some k =>
      let f : Frame := ⟨dst, src, k, Fin.ofNat 8 (kc.toNat % 8), payload⟩
      if rest.length = len.toNat + 2 ∧ frameLengthOk k len.toNat = true ∧ kc.toNat / 8 % 2 = 0
          ∧ dst.isAddress = true ∧ src.isAddress = true
          ∧ rest.drop len.toNat = bytesOf 2 (Config.crc16 f.body).toNat
      then some f else none
    | none => none
  | _ => none

/-- A COMMAND of a segment port's queue as a frame: own frames carry source 121, forwarded ones the
supervisor's 0 (R2). -/
def Cmd.frame (c : Cmd) (source : Byte) : Frame :=
  ⟨BitVec.ofNat 8 c.station, source, .command, Fin.ofNat 8 c.channel, bytesOf 2 c.value⟩

/-- A notice as a frame (R2, R169, 10 section 10.7). -/
def Notice.frame (n : Notice) : Frame :=
  ⟨0, Config.ownAddress, .notice, 0,
    [BitVec.ofNat 8 n.kind.code, BitVec.ofNat 8 n.object.code] ++ bytesOf 2 n.index
      ++ [BitVec.ofNat 8 n.cause.code] ++ bytesOf 4 n.value⟩

/-- A response as a frame (R2, 10 section 10.7). -/
def Response.frame (r : Response) : Frame :=
  ⟨0, Config.ownAddress, .mgmtRsp, 0, [r.code, r.tag, BitVec.ofNat 8 r.result.code] ++ r.data⟩

end Sys2Proof.Machine
end

