-- ==== Sys2Proof/Machine/Flags.lean ====
section
/-!
DEFINITION. What the blocks judge from the state: effective values (R35), the admitted rate (R53), the
permit conditions (R55), the inhibit causes (R64-R70), flow classes (R24-R26), request sources (R97,
R99), eligibility (R105), tank levels (R123), timetable coverage (R158, R159), the restore's unsettled
objects (R132) and the busy rules (R164). Nothing here changes the state.
-/

namespace Sys2Proof.Machine

/-! ## Readings (R35) -/

/-- The effective value of a slot, none while it is not usable (R35). -/
def Slot.effective (x : Slot) : Option Nat :=
  match x.sub with
  | some u => some u.value
  | none => if x.base.state = .valid then x.base.held.map Held.value else none

/-- The effective value of slot `k` (R35). -/
def State.reading (s : State) (k : SlotIx) : Option Nat := (s.slots.get k).effective

/-! ## Flow classes (R24-R26) -/

/-- The order of the classes, FULL highest (02 section 2.3). -/
def FlowClass.height : FlowClass → Nat
  | .full => 3 | .reduced => 2 | .low => 1 | .none => 0

/-- LOW or NONE: a starved circuit (R28). -/
def FlowClass.starved : FlowClass → Bool
  | .low | .none => true
  | .full | .reduced => false

/-- The class one window's sum shows (02 section 2.3 table, R24). -/
def CircuitCfg.measure (c : CircuitCfg) (sum : Nat) : FlowClass :=
  if sum = 0 then .none
  else if c.fullThreshold ≤ sum then .full
  else if c.reducedThreshold ≤ sum then .reduced
  else .low

/-- The lower of two classes (R26). -/
def FlowClass.lower (a b : FlowClass) : FlowClass :=
  if a.height ≤ b.height then a else b

/-- The flow class and the rising class after a window that measured `m` (R25, R26). -/
def FlowClass.judge (now : FlowClass) (rising : Option FlowClass) (m : FlowClass) :
    FlowClass × Option FlowClass :=
  if m.height < now.height then (m, Option.none)
  else if m = now then (now, Option.none)
  else match rising with
    | Option.none => (now, some m)
    | some r => (r.lower m, Option.none)

/-- The flow class of circuit `c`. -/
def State.flowClass (s : State) (c : CircuitIx) : FlowClass := (s.flow.circuits.get c).flowClass

/-! ## Lines (R53, R55, R60) -/

/-- The reading that governs a line (R53). -/
def LineCfg.governing (c : LineCfg) : Option SlotIx :=
  match c.kind with
  | .hypo => some (freeClSlot c.circuit)
  | .acid => some (phSlot c.circuit)
  | .coag => none

/-- The BLIND term applies: a HYPO or ACID line whose governing reading is not usable, outside
COMMISSION (R53, R70). -/
def State.blindApplies (s : State) (i : LineIx) : Bool :=
  match (s.tables.lines.get i).governing with
  | some k => (s.reading k).isNone && s.modeNow != .commission
  | none => false

/-- The terms that apply to a DOSING line, in the order of the table of R53. -/
def State.rateTerms (s : State) (i : LineIx) : List (Nat × Term) :=
  let c := s.tables.lines.get i
  [((s.gate.get i).requested, .requested), (c.maxRate, .maxRate)]
    ++ (if s.flowClass c.circuit = .reduced
        then [(c.maxRate * c.reducedFraction / 100, .reducedFlow)] else [])
    ++ (if s.blindApplies i then [(c.blindRate, .blind)] else [])

/-- The least term, the first of those that give the least value (R53). -/
def leastTerm : List (Nat × Term) → Nat × Term
  | [] => (0, .requested)
  | t :: ts => ts.foldl (fun a b => if b.1 < a.1 then b else a) t

/-- Some cause is present. -/
def Causes.any (c : Causes) : Bool :=
  c.flow || c.limit || c.backwash || c.unreachable || c.circStop || c.plantStop || c.hold
    || c.lockout

/-- The admitted rate and the binding term (R53); the binding term of a line that is not dosing is the
one it last had. -/
def State.admittedRate (s : State) (i : LineIx) : Nat × Term :=
  let l := s.gate.get i
  if l.state = .dosing ∧ l.causes.any = false then leastTerm (s.rateTerms i) else (0, l.binding)

/-- Another line at the same injection point has an admitted rate above 0 (R56 step 5, R60). -/
def State.otherDosing (s : State) (i : LineIx) : Bool :=
  (List.finRange 12).any fun j =>
    j != i && (s.tables.lines.get j).injectionPoint == (s.tables.lines.get i).injectionPoint
      && decide (0 < (s.gate.get j).admitted)

/-- The modes in which a permit may be on (R55, R135). -/
def Mode.permits : Mode → Bool
  | .supervised | .fallback | .commission => true
  | .startup | .hold | .lockout => false

/-- The four conditions of permit output Pn (R55). -/
def State.permitDue (s : State) (i : LineIx) : Bool :=
  let l := s.gate.get i
  l.state == .dosing && decide (0 < l.admitted)
    && !(s.flowClass (s.tables.lines.get i).circuit).starved
    && !s.pins.plantStop && s.modeNow.permits

/-- The first latched cause present, in the order LOCKOUT, PLANT_STOP, HOLD, CIRC_STOP (R56). -/
def Causes.firstLatched (c : Causes) : Option Cause :=
  if c.lockout then some .lockout else if c.plantStop then some .plantStop
  else if c.hold then some .hold else if c.circStop then some .circStop else none

/-- A latched cause of `new` that `old` does not hold (R50, R61). -/
def Causes.latchedNew (old new : Causes) : Bool :=
  (new.circStop && !old.circStop) || (new.plantStop && !old.plantStop)
    || (new.hold && !old.hold) || (new.lockout && !old.lockout)

/-! ## Inhibit causes (R64-R71) -/

/-- LIMIT with its hysteresis, from the last report of the governing reading (R65, R70): `old` is whether
it stands now, which a value between the bounds keeps. -/
def State.judgeLimit (s : State) (i : LineIx) (old : Bool) : Bool :=
  let c := s.tables.lines.get i
  match c.governing with
  | none => false
  | some k =>
    if s.modeNow = .commission then false
    else match s.reading k with
      | none => false
      | some v =>
        if c.kind = .hypo then
          if c.limit ≤ v then true else if v + c.hysteresis < c.limit then false else old
        else
          if v ≤ c.limit then true else if c.limit + c.hysteresis < v then false else old

/-- A stage that holds BACKWASH on the circuit's COAG lines (R66). -/
def Stage.holdsCoag : Stage → Bool
  | .scour | .wash | .settle | .rinse => true
  | .isolate | .return => false

/-- BACKWASH stands for line `i` (R66). -/
def State.backwashCause (s : State) (i : LineIx) : Bool :=
  let c := s.tables.lines.get i
  c.kind == .coag && (List.finRange 8).any fun f =>
    (s.tables.filters.get f).circuit == c.circuit &&
      match s.backwashOf f with
      | some b => b.stage.holdsCoag
      | none => false

/-- FLOW stands for line `i` (R64). -/
def State.flowCause (s : State) (i : LineIx) : Bool :=
  (s.flowClass (s.tables.lines.get i).circuit).starved

/-- UNREACHABLE stands for line `i` (R67). -/
def State.unreachableCause (s : State) (i : LineIx) : Bool :=
  s.entryCutOff (s.lineEntry i)

/-- CIRC_STOP stands for line `i` (R71). -/
def State.circStopCause (s : State) (i : LineIx) : Bool :=
  (s.flow.circuits.get (s.tables.lines.get i).circuit).circulation == .stopped

/-- The causes of the five conditions judged afresh by a write (R61), the latched ones of the pins and
the mode kept. -/
def State.causesAfresh (s : State) (i : LineIx) (old : Causes) : Causes :=
  { old with
    flow := s.flowCause i
    limit := s.judgeLimit i old.limit
    backwash := s.backwashCause i
    unreachable := s.unreachableCause i
    circStop := s.circStopCause i }

/-- Every cause whose condition stands at this moment (R51, R52). -/
def State.standingCauses (s : State) (i : LineIx) : Causes :=
  { s.causesAfresh i Causes.empty with
    plantStop := s.pins.plantStop
    hold := s.modeNow == .hold
    lockout := s.modeNow == .lockout }

/-! ## Programmes (R82) -/

/-- A step's time counts: the line is DOSING, or STOPPED under a step of rate 0 (R82). -/
def LineState.counts (l : LineState) (stepRate : Nat) : Bool :=
  l == .dosing || (l == .stopped && stepRate == 0)

/-- Programme A or B of a line by its circuit's OPEN flag (R86, R87). -/
def State.dueWhich (s : State) (i : LineIx) : Which :=
  if s.clock.openFlags.get (s.tables.lines.get i).circuit then .a else .b

/-- The line has a range for the programme its circuit's OPEN flag names (R59, R86, R87). -/
def State.hasDue (s : State) (i : LineIx) : Bool :=
  (((s.tables.lines.get i).range (s.dueWhich i)).steps).isSome

/-! ## Filters (R97-R99, R105, R123) -/

/-- A pressure source with its hysteresis (R97): `old` is whether it stands now. -/
def judgeSource (reading : Option Nat) (limit hysteresis : Nat) (old : Bool) : Bool :=
  match reading with
  | none => false
  | some v => if limit ≤ v then true else if v + hysteresis < limit then false else old

/-- DP and DP_URGENT are suppressed (R98). -/
def ArbFilter.suppressed (a : ArbFilter) : Bool := a.check.isSome || a.dpIgnored

/-- The request set with DP and DP_URGENT judged (R97, R98); an unassigned filter holds none. -/
def State.judgeDp (s : State) (f : FilterIx) : RequestSet :=
  let a := s.arbiter.filters.get f
  let c := s.tables.filters.get f
  if c.assigned = false then ⟨false, false, false, false⟩
  else if a.suppressed then { a.requests with dp := false, dpUrgent := false }
  else { a.requests with
    dp := judgeSource (s.reading (dpSlot f)) c.dpLimit c.dpHysteresis a.requests.dp
    dpUrgent := judgeSource (s.reading (dpSlot f)) c.dpUrgentLimit c.dpHysteresis
      a.requests.dpUrgent }

/-- HOURS stands for filter `f` (R99); an unassigned filter's sources are not judged (06 section 6.3). -/
def State.hoursDue (s : State) (f : FilterIx) : Bool :=
  let c := s.tables.filters.get f
  c.assigned && c.hoursLimit != 0 && decide (c.hoursLimit ≤ (s.mode.retained.runHours.get f).hours)

/-- Some source is present. -/
def RequestSet.any (r : RequestSet) : Bool := r.dp || r.dpUrgent || r.hours || r.manual

/-- The number of a circuit's filters that are IN_SERVICE (R31). -/
def State.inServiceCount (s : State) (c : CircuitIx) : Nat :=
  (List.finRange 8).countP fun f =>
    (s.tables.filters.get f).assigned && (s.tables.filters.get f).circuit == c
      && decide ((s.seq.filters.get f).state = .inService)

/-- The fourteen conditions of R105 for filter `f`, in order. -/
def State.conditions (s : State) (f : FilterIx) : List Bool :=
  let a := s.arbiter.filters.get f
  let c := (s.tables.filters.get f).circuit
  let p := s.tables.params
  [ decide ((s.seq.filters.get f).state = .inService),
    !a.masked,
    a.holdOff.isNone,
    a.requests.any,
    s.modeNow == .supervised || s.modeNow == .fallback,
    !s.pins.plantStop,
    (s.flow.circuits.get c).circulation == .run,
    !(s.flowClass c).starved,
    decide ((s.tables.circuits.get c).minFilters + 1 ≤ s.inServiceCount c),
    match s.reading balanceSlot with
      | some v => decide (p.supplyStart ≤ v)
      | none => false,
    match s.reading sumpSlot with
      | some v => decide (v ≤ p.sumpStart)
      | none => false,
    s.entryUp s.pumpEntry,
    s.entryUp (s.valveEntry f),
    a.requests.dpUrgent || s.clock.washFlags.get c ]

/-- The number of the first condition that fails, none where the filter is eligible (R105). -/
def State.firstFailed (s : State) (f : FilterIx) : Option Nat :=
  ((s.conditions f).findIdx? fun b => !b).map (· + 1)

/-- The filter is eligible (R105). -/
def State.eligible (s : State) (f : FilterIx) : Bool := (s.conditions f).all id

/-- The eligible filter of highest rank among those that `p` holds of (R107). -/
def State.highest (s : State) (p : FilterIx → Bool) : Option FilterIx :=
  (List.finRange 8).foldl (fun best f =>
    if s.eligible f && p f then
      match best with
      | none => some f
      | some g =>
        if (s.arbiter.filters.get g).rank < (s.arbiter.filters.get f).rank then some f else some g
    else best) none

/-- The winner of a selection (R107): the highest rank among the eligible filters that hold DP_URGENT,
otherwise among all eligible ones. -/
def State.winner (s : State) : Option FilterIx :=
  match s.highest fun f => (s.arbiter.filters.get f).requests.dpUrgent with
  | some f => some f
  | none => s.highest fun _ => true

/-- The abort cause the tank levels give during WASH (R123). -/
def State.tankAbort (s : State) : Option AbortCause :=
  match s.reading balanceSlot, s.reading sumpSlot with
  | some b, some u =>
    if b < s.tables.params.supplyStop then some .supplyLow
    else if s.tables.params.sumpStop < u then some .sumpFull else none
  | _, _ => some .readingLost

/-! ## Clock (R158, R159) -/

/-- An enabled entry of kind `k` covers circuit `c` at a day and minute (R158). -/
def TimeEntry.covers (e : TimeEntry) (k : EntryKind) (c : CircuitIx) (day minute : Nat) : Bool :=
  e.enabled && e.kind == k && e.circuits.getLsbD c.val && e.days.getLsbD day
    && decide (e.startMinute ≤ minute ∧ minute < e.endMinute)

/-- The lowest index of the enabled entries of kind `k` that cover circuit `c` now (R158, R160). -/
def State.covering (s : State) (k : EntryKind) (c : CircuitIx) : Option (Fin 16) :=
  (List.finRange 16).find? fun e =>
    (s.tables.timetable.get e).covers k c s.clock.day s.clock.minute

/-- OPEN as an evaluation sets it (R159). -/
def State.openDue (s : State) (c : CircuitIx) : Bool :=
  if s.clock.valid then (s.covering .openHours c).isSome else true

/-- WASH_WINDOW as an evaluation sets it (R159). -/
def State.washDue (s : State) (c : CircuitIx) : Bool :=
  if s.clock.valid then (s.covering .washWindow c).isSome else false

/-! ## The restore (R132) -/

/-- A line's restore object is not settled: an enabled line that is AWAITING and not FAULTED. -/
def State.lineUnsettled (s : State) (i : LineIx) : Bool :=
  let l := s.gate.get i
  l.state != .disabled && l.state != .faulted && l.confirmation != .confirmed

/-- A filter's restore object is not settled: its service attempt is pending. -/
def State.filterUnsettled (s : State) (f : FilterIx) : Bool :=
  (s.tables.filters.get f).assigned && (s.seq.filters.get f).attempt.isSome

/-- The number of restore objects not yet settled (R132, R134). -/
def State.unsettled (s : State) : Nat :=
  (List.finRange 8).countP s.filterUnsettled + (List.finRange 12).countP s.lineUnsettled
    + (if s.seq.restore.pumpSettled then 0 else 1)

/-! ## Busy rules (R164) -/

/-- A line is idle while it is STOPPED, DISABLED or FAULTED (R164). -/
def State.lineIdle (s : State) (i : LineIx) : Bool :=
  let l := (s.gate.get i).state
  l == .stopped || l == .disabled || l == .faulted

/-- A circuit is idle (R164). -/
def State.circuitIdle (s : State) (c : CircuitIx) : Bool :=
  ((List.finRange 12).all fun i =>
    !((s.tables.lines.get i).enabled && (s.tables.lines.get i).circuit == c) || s.lineIdle i)
    && !s.backwashOn c

/-- The object of an admission entry is idle (R164). -/
def State.entryIdle (s : State) (e : AdmissionEntry) : Bool :=
  match e.object with
  | .doseLine => match ixFrom 1 12 e.objectIndex with
    | some i => s.lineIdle i
    | none => true
  | .filterValves => match ixFrom 1 8 e.objectIndex with
    | some f => (s.backwashOf f).isNone
    | none => true
  | .backwashPump => !s.anyBackwash
  | .circPump => match ixFrom 1 6 e.objectIndex with
    | some c => s.circuitIdle c
    | none => true
  | .pass | .closed => true

/-- A directory entry is idle: every enabled admission entry whose key names the station is (R164). -/
def State.stationIdle (s : State) (station : Nat) : Bool :=
  (List.finRange 48).all fun k =>
    let e := s.tables.admission.get k
    !(e.enabled && e.station == station) || s.entryIdle e

/-- The step lies in a range of an active programme (R78, R164). -/
def State.stepActive (s : State) (index : Nat) : Bool :=
  (List.finRange 12).any fun i =>
    match s.runner.progs.get i with
    | none => false
    | some p => match ((s.tables.lines.get i).range p.which).steps with
      | some (f, n) => decide (f ≤ index ∧ index < f + n)
      | none => false

end Sys2Proof.Machine
end

