-- ==== Sys2Proof/Machine/Ops.lean ====
section
/-!
DEFINITION. The named operations over the ports, the queues and the records, which every meaning goes
through: raising a notice (R17, R169), a response (R17, R161), offering an own frame (R15), the
forwarded queues (R14, R16), writing a line (with its permit, R55, and its programme's paused flag,
R82) and writing a filter.
-/

namespace Sys2Proof.Machine

/-- `f` over the twelve lines in order (log entry 6). -/
def State.forLines (s : State) (f : State → LineIx → State) : State :=
  (List.finRange 12).foldl f s

/-- `f` over the eight filters in order (log entry 6). -/
def State.forFilters (s : State) (f : State → FilterIx → State) : State :=
  (List.finRange 8).foldl f s

/-! ## Notices and responses -/

/-- A notice is raised: it joins the notice queue, or is dropped and NOTICES_DROPPED is set (R17). -/
def State.notify (s : State) (n : Notice) : State :=
  if s.ports.notices.length < Config.noticePlaces then
    { s with ports := { s.ports with notices := s.ports.notices ++ [n] } }
  else
    { s with mgmt := { s.mgmt with
        conditions := { s.mgmt.conditions with noticesDropped := true } } }

/-- A REFUSED notice (R10). -/
def State.refuse (s : State) (object : ObjectKind) (index : Nat) (cause : Cause) (value : Nat) :
    State :=
  s.notify ⟨.refused, object, index, cause, value⟩

/-- The response places taken: completed responses and the reservation of a write in flight (R17). -/
def State.placesTaken (s : State) : Nat :=
  s.ports.responses.length + (if s.mgmt.write.isSome then 1 else 0)

/-- A completed response joins the response queue at the place it reserved (R17). -/
def State.respond (s : State) (r : Response) : State :=
  { s with ports := { s.ports with responses := s.ports.responses ++ [r] } }

/-! ## Segment queues -/

/-- Segment port `g` changed by `f`. -/
def State.updSegment (s : State) (g : SegIx) (f : Segment → Segment) : State :=
  { s with ports := { s.ports with segments := s.ports.segments.upd g f } }

/-- Two commands are for one target key (R15). -/
def Cmd.sameKey (a b : Cmd) : Bool := a.station == b.station && a.channel == b.channel

/-- An own frame is offered: replaced in place, queued at the tail, or not queued (R15). -/
def Segment.offer (x : Segment) (c : Cmd) : Segment :=
  if x.state.cutOff then x
  else if x.own.any c.sameKey then
    { x with own := x.own.map fun d => if c.sameKey d then { d with value := c.value } else d }
  else if x.own.length < Config.ownPlaces then { x with own := x.own ++ [c] }
  else x

/-- The part originates a COMMAND to the key of an entry, on the segment its station lies on; with no
entry or no segment the frame is not queued (R15, R54, R67, R117). -/
def State.originate (s : State) (k : Option (Fin 48)) (value : Nat) : State :=
  match k with
  | none => s
  | some k =>
    let e := s.tables.admission.get k
    match s.segOf e.station with
    | none => s
    | some g => s.updSegment g fun x => x.offer ⟨e.station, e.channel, value⟩

/-- An admitted supervisor command joins the forwarded queue of its segment port (R10, R14). -/
def State.forwardDown (s : State) (g : SegIx) (c : Cmd) : State :=
  s.updSegment g fun x => { x with forwarded := x.forwarded ++ [c] }

/-- A sample or echo is forwarded up, or is dropped and SP_CONGESTED is set (R16). -/
def State.forwardUp (s : State) (f : Frame) : State :=
  if s.ports.forwarded.length < Config.forwardedPlaces then
    { s with ports := { s.ports with forwarded := s.ports.forwarded ++ [f] } }
  else
    { s with mgmt := { s.mgmt with
        conditions := { s.mgmt.conditions with spCongested := true } } }

/-! ## Lines -/

/-- Every permit output set from its four conditions (R55). -/
def State.refreshPermits (s : State) : State :=
  { s with pins := { s.pins with permits := .ofFn s.permitDue } }

/-- A programme on line `i` is paused if the state of the line record `l` does not count its step's
time (R82). -/
def State.markPaused (s : State) (i : LineIx) (l : Line) (p : Prog) : Prog :=
  { p with paused := p.paused || !(l.state.counts (s.stepOf i p).rate) }

/-- Line `i` takes its new fields; its permit is set (R55), and a programme on it is marked paused if
the line's state does not count its step's time (R82). -/
def State.putLine (s : State) (i : LineIx) (l : Line) : State :=
  let t : State := { s with gate := s.gate.set i l }
  { t with
    pins := { s.pins with permits := s.pins.permits.set i (t.permitDue i) }
    runner := { s.runner with progs := s.runner.progs.upd i (Option.map (s.markPaused i l)) } }

/-- The programme of line `i` becomes `p` (R80). -/
def State.putProg (s : State) (i : LineIx) (p : Option Prog) : State :=
  { s with runner := { s.runner with progs := s.runner.progs.set i p } }

/-- A programme on line `i`, if there is one, ends with a PROGRAMME_END notice that carries the store
index of the step in progress (R85). -/
def State.endProgramme (s : State) (i : LineIx) (cause : Cause) : State :=
  match s.runner.progs.get i with
  | none => s
  | some p =>
    (s.putProg i none).notify
      ⟨.programmeEnd, .line, i.val + 1, cause, s.stepIndex i p.which p.position⟩

/-! ## Filters -/

/-- The Sequencer's fields of filter `f` changed (R113). -/
def State.updFilter (s : State) (f : FilterIx) (h : SeqFilter → SeqFilter) : State :=
  { s with seq := { s.seq with filters := s.seq.filters.upd f h } }

/-- The Arbiter's fields of filter `f` changed (R95). -/
def State.updArb (s : State) (f : FilterIx) (h : ArbFilter → ArbFilter) : State :=
  { s with arbiter := { s.arbiter with filters := s.arbiter.filters.upd f h } }

/-- The request set of filter `f` becomes `r` (R95). -/
def State.putRequests (s : State) (f : FilterIx) (r : RequestSet) : State :=
  s.updArb f fun a => { a with requests := r }

/-- DP and DP_URGENT of filter `f` are judged (R97, R98). -/
def State.rejudgeDp (s : State) (f : FilterIx) : State :=
  s.putRequests f (s.judgeDp f)

/-- HOURS of filter `f` is judged (R99). -/
def State.rejudgeHours (s : State) (f : FilterIx) : State :=
  s.updArb f fun a => { a with requests := { a.requests with hours := s.hoursDue f } }

/-- PB takes a value (R120). -/
def State.setPb (s : State) (on : Bool) : State :=
  { s with pins := { s.pins with pb := on } }

/-- The pump as commanded becomes RUN or STOP (R113). -/
def State.setPump (s : State) (run : Bool) : State :=
  { s with seq := { s.seq with pumpRun := run } }

/-- The retained record changed; each field is written in the event that changes it (R136). -/
def State.updRetained (s : State) (h : Retained → Retained) : State :=
  { s with mode := { s.mode with retained := h s.mode.retained } }

/-- The run hours of filter `f`, whose one home is the retained record (R96). -/
def State.putRunHours (s : State) (f : FilterIx) (r : RunHours) : State :=
  s.updRetained fun x => { x with runHours := x.runHours.set f r }

/-- The clock's fields changed (R154). -/
def State.updClock (s : State) (h : Clock → Clock) : State :=
  { s with clock := h s.clock }

/-- The latched conditions changed (R168). -/
def State.updConditions (s : State) (h : Conditions → Conditions) : State :=
  { s with mgmt := { s.mgmt with conditions := h s.mgmt.conditions } }

/-- The working tables changed (R162). -/
def State.updTables (s : State) (h : Tables → Tables) : State :=
  { s with tables := h s.tables }

/-- The live fields of circuit `c` changed (02 section 2.2). -/
def State.updCircuit (s : State) (c : CircuitIx) (h : Circuit → Circuit) : State :=
  { s with flow := { s.flow with circuits := s.flow.circuits.upd c h } }

/-- Slot `k` takes its new fields (R33). -/
def State.putSlot (s : State) (k : SlotIx) (x : Slot) : State :=
  { s with slots := s.slots.set k x }

end Sys2Proof.Machine
end

