-- ==== Sys2Proof/Machine/GateOps.lean ====
section
/-!
DEFINITION. The shared operations of the Dose Gate (04) and of the Programme Runner (05): the recompute,
adding and removing causes, the resume delay, a request and its tests, a fault, and the run of a
programme.
-/

namespace Sys2Proof.Machine

/-! ## The recompute -/

/-- For whom a recompute is made: an event of the gate (own frame and CLAMPED notice, R54), the
acceptance of a supervisor command (its forwarded frame carries the rate, R57), or a programme request
(own frame, no notice, R58). -/
inductive For where
  | event | supervisor | programme
  deriving DecidableEq, Repr

/-- The confirmation becomes AWAITING with the confirm timer at the line's confirm limit (R54, R57). -/
def State.startConfirm (s : State) (i : LineIx) : State :=
  s.putLine i { s.gate.get i with
    confirmation := .awaiting (some (s.tables.lines.get i).confirmLimit) }

/-- A line whose rate would rise from 0 at a shared injection point is dropped to STOPPED, with
REFUSED(EXCLUDED), and a programme on it ends (R60, R63, R85). REFUSED before PROGRAMME_END is the model's
choice (log entry 6). -/
def State.excludeDrop (s : State) (i : LineIx) : State :=
  let l := s.gate.get i
  ((s.putLine i { l with state := .stopped, requested := 0, source := .none, resume := 0 }).refuse
    .line (i.val + 1) .excluded l.requested).endProgramme i .excluded

/-- The admitted rate of line `i` is recomputed once, after all the changes of the event (R54); a rise
from 0 is first tested for exclusion (R60). -/
def State.recompute (s : State) (w : For) (i : LineIx) : State :=
  let l := s.gate.get i
  let r := s.admittedRate i
  if l.admitted = 0 ∧ 0 < r.1 ∧ s.otherDosing i = true then s.excludeDrop i
  else if r.1 = l.admitted then s.putLine i { l with binding := r.2 }
  else
    let t := (s.putLine i { l with admitted := r.1, binding := r.2 }).startConfirm i
    let t := if w = .supervisor then t else t.originate (t.lineEntry i) r.1
    if w = .event ∧ l.state = .dosing ∧ 0 < r.1 ∧ r.1 < l.requested then
      t.notify ⟨.clamped, .line, i.val + 1, r.2.cause, r.1⟩
    else t

/-! ## Causes (R61-R63) -/

/-- The resume timer of line `i` expires (R63). -/
def State.resumeExpired (s : State) (i : LineIx) : State :=
  let l := s.gate.get i
  if 0 < l.requested ∧ s.otherDosing i = true then s.excludeDrop i
  else if l.requested = 0 then s.putLine i { l with state := .stopped, resume := 0 }
  else (s.putLine i { l with state := .dosing, resume := 0 }).recompute .event i

/-- The state of an enabled line when its set of causes becomes `new` (R61, R62), given the requested
rate after the latched causes have been added. -/
def Line.nextState (l : Line) (new : Causes) (requested : Nat) : LineState :=
  match l.state with
  | .disabled => .disabled
  | .faulted => .faulted
  | .inhibited => if new.any then .inhibited else if requested = 0 then .stopped else .resuming
  | .stopped => if new.any then .inhibited else .stopped
  | .dosing => if new.any then .inhibited else .dosing
  | .resuming => if new.any then .inhibited else .resuming

/-- The cause a programme ends with when a latched cause clears its line's request (R61, R85); HOLD and
LOCKOUT end it in the mode change, with no notice. -/
def Causes.clearedBy (old new : Causes) : Option Cause :=
  if new.circStop && !old.circStop then some .circStop
  else if new.plantStop && !old.plantStop then some .plantStop
  else none

/-- The causes of line `i` become `new` in one event (R61, R62): a DISABLED line takes none; a latched
cause that is added clears the request; the line is then recomputed once, or, if it leaves INHIBITED
with a resume delay of 0 s, takes the expiry in the same event (R63). -/
def State.applyCauses (s : State) (i : LineIx) (new : Causes) : State :=
  let l := s.gate.get i
  if l.state = .disabled then s
  else
    let cleared := l.causes.latchedNew new
    let requested := if cleared then 0 else l.requested
    let next := l.nextState new requested
    let resumes := l.state = .inhibited ∧ next = .resuming
    let delay := (s.tables.lines.get i).resumeDelay
    let t := s.putLine i { l with
      causes := new
      state := next
      requested := requested
      source := if cleared then .none else l.source
      resume := if resumes then delay else if next = .resuming then l.resume else 0 }
    let t := match l.causes.clearedBy new with
      | some c => t.endProgramme i c
      | none => t
    if resumes ∧ delay = 0 then t.resumeExpired i else t.recompute .event i

/-- The Flow Unit reports the class of circuit `c` (R64). -/
def State.gateFlow (s : State) (c : CircuitIx) : State :=
  s.refreshPermits.forLines fun s i =>
    if (s.tables.lines.get i).circuit = c then
      s.applyCauses i { (s.gate.get i).causes with flow := s.flowCause i }
    else s

/-- The Reading Table reports slot `k` (R65). -/
def State.gateReading (s : State) (k : SlotIx) : State :=
  s.forLines fun s i =>
    if (s.tables.lines.get i).governing = some k then
      s.applyCauses i { (s.gate.get i).causes with
        limit := s.judgeLimit i (s.gate.get i).causes.limit }
    else s

/-- The Sequencer reports a stage of a filter whose configured circuit is `c` (R66). -/
def State.gateBackwash (s : State) (c : CircuitIx) : State :=
  s.forLines fun s i =>
    if (s.tables.lines.get i).kind = .coag ∧ (s.tables.lines.get i).circuit = c then
      s.applyCauses i { (s.gate.get i).causes with backwash := s.backwashCause i }
    else s

/-- The Port Block reports segment `g` (R67). -/
def State.gateSegment (s : State) (g : SegIx) : State :=
  s.forLines fun s i =>
    if s.segOfEntry (s.lineEntry i) = some g then
      s.applyCauses i { (s.gate.get i).causes with unreachable := s.unreachableCause i }
    else s

/-- The plant stop input is asserted or released (R68). -/
def State.gatePlantStop (s : State) (on : Bool) : State :=
  let t : State := { s with pins := { s.pins with plantStop := on } }
  t.refreshPermits.forLines fun s i =>
    s.applyCauses i { (s.gate.get i).causes with plantStop := on }

/-- Circulation of circuit `c` is commanded to stop or run: CIRC_STOP on its lines (R71). -/
def State.gateCirculation (s : State) (c : CircuitIx) (stop : Bool) : State :=
  s.forLines fun s i =>
    if (s.tables.lines.get i).circuit = c then
      s.applyCauses i { (s.gate.get i).causes with circStop := stop }
    else s

/-- The five conditions of line `i` are judged afresh after a write (R61). -/
def State.gateAfresh (s : State) (i : LineIx) : State :=
  s.applyCauses i (s.causesAfresh i (s.gate.get i).causes)

/-! ## Faults (R74) -/

/-- Line `i` enters FAULTED: rates and source cleared with its permit off, the reason recorded, one
COMMAND of 0 originated with no confirm timer, LINE_FAULT sent, and a programme on it ends (R74). That
PROGRAMME_END follows LINE_FAULT is read from the order in which R74 names them (log entry 6, DEDUCED). -/
def State.faultLine (s : State) (i : LineIx) (reason : LineFault) (value : Nat) : State :=
  let l := s.gate.get i
  let t := s.putLine i { l with
    state := .faulted, requested := 0, admitted := 0, source := .none, resume := 0
    fault := some reason, confirmation := .awaiting none }
  ((t.originate (t.lineEntry i) 0).notify
    ⟨.lineFault, .line, i.val + 1, reason.cause, value⟩).endProgramme i reason.cause

/-! ## Requests (R56-R60) -/

/-- The tests of R56 in order: the cause of the first that fails. -/
def State.lineTest (s : State) (i : LineIx) (value : Nat) (modeOk : Bool) : Option Cause :=
  let l := s.gate.get i
  if modeOk = false then some .mode
  else if 60000 < value then some .badValue
  else if l.state = .disabled then some .disabledLine
  else if l.state = .faulted then some .faultedLine
  else match l.causes.firstLatched with
    | some c => some c
    | none => if value ≠ 0 ∧ s.otherDosing i = true then some .excluded else none

/-- The line waits: its request is stored and acts later (R57 HELD). -/
def LineState.holds : LineState → Bool
  | .inhibited | .resuming => true
  | _ => false

/-- An accepted request takes line `i` to DOSING or STOPPED by its value, and the rate is recomputed
(R57, R58). -/
def State.act (s : State) (w : For) (i : LineIx) (value : Nat) (source : Source) : State :=
  (s.putLine i { s.gate.get i with
    requested := value, source := source
    state := if value = 0 then .stopped else .dosing }).recompute w i

/-- A programme on line `i` is overridden by an accepted supervisor command (R57, R85). -/
def State.overrideProgramme (s : State) (i : LineIx) (value : Nat) : State :=
  match s.runner.progs.get i with
  | none => s
  | some _ => (s.putProg i none).notify
      ⟨.programmeOverridden, .line, i.val + 1, .supervisor, value⟩

/-- A supervisor command for line `i` through admission entry `k`, from segment port `g`'s place
(R56, R57). PROGRAMME_OVERRIDDEN before the HELD or CLAMPED notice is the model's choice (log entry 6). -/
def State.lineCommand (s : State) (k : Fin 48) (g : SegIx) (i : LineIx) (c : Cmd) : State :=
  match s.lineTest i c.value (s.modeNow == .supervised || s.modeNow == .commission) with
  | some cause => s.refuse .entry k.val cause c.value
  | none =>
    let t := s.overrideProgramme i c.value
    if (t.gate.get i).state.holds then
      (t.putLine i { t.gate.get i with requested := c.value, source := .supervisor }).refuse
        .entry k.val .held c.value
    else
      let t := (t.act .supervisor i c.value .supervisor).startConfirm i
      let l := t.gate.get i
      let t := t.forwardDown g { c with value := l.admitted }
      if l.admitted = c.value then t
      else t.notify ⟨.clamped, .entry, k.val, l.binding.cause, l.admitted⟩

/-- What the Dose Gate returns to the Runner (R58). -/
inductive Submitted where
  | pass
  | clamp (term : Term) (rate : Nat)
  | held
  | refuse (cause : Cause)
  deriving DecidableEq, Repr

/-- A programme's request for line `i` (R58): step 1 of R56 is met in FALLBACK, and in SUPERVISED for a
shock programme. -/
def State.submit (s : State) (i : LineIx) (w : Which) (rate : Nat) : State × Submitted :=
  match s.lineTest i rate
      (s.modeNow == .fallback || (s.modeNow == .supervised && w.isShock)) with
  | some cause => (s, .refuse cause)
  | none =>
    if (s.gate.get i).state.holds then
      (s.putLine i { s.gate.get i with requested := rate, source := .programme }, .held)
    else
      let t := s.act .programme i rate .programme
      let l := t.gate.get i
      (t, if l.admitted = rate then .pass else .clamp l.binding l.admitted)

/-- The zero request of R59: the request is cleared; a DOSING or RESUMING line enters STOPPED. -/
def State.zeroRequest (s : State) (i : LineIx) : State :=
  let l := s.gate.get i
  (s.putLine i { l with
    requested := 0, source := .none
    state := if l.state = .dosing ∨ l.state = .resuming then .stopped else l.state
    resume := 0 }).recompute .event i

/-! ## Running a programme (R81-R87) -/

/-- The Runner releases line `i`: the zero request of R59 if the line's source is PROGRAMME (R85). -/
def State.release (s : State) (i : LineIx) : State :=
  if (s.gate.get i).source = .programme then s.zeroRequest i else s

/-- A programme ends with its notice and the release of its line (R85). -/
def State.endAndRelease (s : State) (i : LineIx) (cause : Cause) : State :=
  (s.endProgramme i cause).release i

/-- The programme state at the start of a step (R81). -/
def Prog.atStart (w : Which) (position : Nat) (r : StepRec) : Prog :=
  ⟨w, position, r.duration * 60, if r.kind = .batch then some ⟨0, 0⟩ else none, false⟩

/-- A step starts: the programme state is set and the rate submitted, with the CLAMPED notice where the
outcome is CLAMP (R81). A refusal is the caller's to act on. -/
def State.beginStep (s : State) (i : LineIx) (w : Which) (position : Nat) : State × Submitted :=
  let r := s.stepAt (s.stepIndex i w position)
  let o := (s.putProg i (some (Prog.atStart w position r))).submit i w r.rate
  match o.2 with
  | .clamp term rate => (o.1.notify ⟨.clamped, .line, i.val + 1, term.cause, rate⟩, o.2)
  | .pass | .held | .refuse _ => o

/-- A step starts within a running programme: a refusal ends the programme (R81, R85). -/
def State.startStep (s : State) (i : LineIx) (w : Which) (position : Nat) : State :=
  let o := s.beginStep i w position
  match o.2 with
  | .refuse cause => o.1.endAndRelease i cause
  | .pass | .held | .clamp _ _ => o.1

/-- The step in progress of programme `p` on line `i` ends (R84): the next step, the loop of a fallback
programme, or the end. -/
def State.stepEnded (s : State) (i : LineIx) (p : Prog) : State :=
  let count := match ((s.tables.lines.get i).range p.which).steps with
    | some (_, n) => n
    | none => 0
  if p.position + 1 < count then s.startStep i p.which (p.position + 1)
  else if p.which.isShock = false ∧ (s.stepOf i p).loop = true then s.startStep i p.which 0
  else s.endAndRelease i .completed

/-- In FALLBACK the OPEN flag of circuit `c` changed: its enabled lines switch programme or are released
(R87); a line with neither range is not affected. -/
def State.switchProgrammes (s : State) (c : CircuitIx) : State :=
  s.forLines fun s i =>
    let cfg := s.tables.lines.get i
    if cfg.enabled = true ∧ cfg.circuit = c ∧ (cfg.progA.steps.isSome || cfg.progB.steps.isSome) then
      if s.hasDue i then (s.putProg i none).startStep i (s.dueWhich i) 0
      else (s.putProg i none).release i
    else s

end Sys2Proof.Machine
end

