-- ==== Sys2Proof/Machine/WashOps.lean ====
section
/-!
DEFINITION. The shared operations of the Backwash Arbiter (06) and of the Backwash Sequencer (07): ranks,
the ends of a backwash, the stages and their moves and dwells, aborts and faults, the selection and the
grant, and what a report of a reading, a segment or a flow class does there.
-/

namespace Sys2Proof.Machine

/-! ## Arbiter (R98, R107-R111) -/

/-- Filter `f` takes rank 0 and every filter below its rank gains 1 (R109, R110). -/
def State.rotate (s : State) (f : FilterIx) : State :=
  let r := (s.arbiter.filters.get f).rank
  { s with arbiter := { s.arbiter with filters := s.arbiter.filters.mapIdx fun j a =>
      { a with rank := if j = f then 0 else if a.rank < r then a.rank + 1 else a.rank } } }

/-- The Arbiter becomes FREE (R108). -/
def State.freeArbiter (s : State) : State :=
  { s with arbiter := { s.arbiter with busy := none } }

/-- MANUAL leaves the request set of filter `f` (R101). -/
def State.dropManual (s : State) (f : FilterIx) : State :=
  s.updArb f fun a => { a with requests := { a.requests with manual := false } }

/-- The Arbiter takes a completed end (R108, R111): run hours zeroed, HOURS judged, MANUAL removed, the
check started, which suppresses DP and DP_URGENT (R98), ranks rotated, FREE. -/
def State.endCompleted (s : State) (f : FilterIx) : State :=
  let t := ((s.putRunHours f ⟨0, 0⟩).rejudgeHours f).dropManual f
  let t := (t.updArb f fun a => { a with check := some (s.tables.filters.get f).checkDelay }).rejudgeDp f
  (t.rotate f).freeArbiter

/-- The Arbiter takes an aborted end (R103, R108): MANUAL removed, hold-off set, FREE. -/
def State.endAborted (s : State) (f : FilterIx) : State :=
  ((s.dropManual f).updArb f fun a => { a with holdOff := some Config.holdOffSeconds }).freeArbiter

/-- The Arbiter takes a faulted end (R108): MANUAL removed, FREE. -/
def State.endFaulted (s : State) (f : FilterIx) : State :=
  (s.dropManual f).freeArbiter

/-! ## Stages (R116-R122) -/

/-- The valve position a stage moves to (R116, 00_scope "Valve and pump codes"). -/
def Stage.position : Stage → Nat
  | .isolate => 2 | .scour => 3 | .wash => 4 | .settle => 2 | .rinse => 5 | .return => 1

/-- The state of filter `f` becomes `x`, reported to the Dose Gate for its circuit's COAG lines (R66,
R113). The in-service count and eligibility are computed from it (R31, R105). -/
def State.putFilterState (s : State) (f : FilterIx) (x : FilterState) : State :=
  (s.updFilter f fun q => { q with state := x }).gateBackwash (s.tables.filters.get f).circuit

/-- The UNRINSED notice (R127). -/
def State.unrinsedNotice (s : State) (f : FilterIx) (cause : Cause) (stage : Stage) : State :=
  (s.updFilter f fun q => { q with unrinsed := true }).notify
    ⟨.unrinsed, .filter, f.val + 1, cause, stage.number⟩

/-- A move begins: the travel timer is started and its COMMAND originated (R117), and then the stage is
reported to the Dose Gate (R113), in the order in which R116 and R125 name the two; that this is also the
order of their effects is log entry 6 (DEDUCED). -/
def State.beginMove (s : State) (f : FilterIx) (b : Backwash) (o : MoveObject) (value : Nat) : State :=
  let t := s.updFilter f fun q => { q with state := .backwash { b with
    step := .move o value (s.tables.filters.get f).travelLimit } }
  (t.originate (match o with | .valves => t.valveEntry f | .pump => t.pumpEntry) value).gateBackwash
    (s.tables.filters.get f).circuit

/-- Filter `f` enters a stage with its first move (R118, R119, R121, R122, R125): wetted at SCOUR and
WASH; at RETURN, wetted and not rinsed, the unrinsed flag and its notice (R127), before the notices of the
Dose Gate on the stage's report, which is the model's choice (log entry 6). -/
def State.enterStage (s : State) (f : FilterIx) (b : Backwash) (stage : Stage) : State :=
  let b : Backwash := { b with
    stage := stage
    wetted := b.wetted || stage == .scour || stage == .wash }
  let t := match stage, b.wetted && !b.rinsed, b.abort with
    | .return, true, some (c, at') => s.unrinsedNotice f c.cause at'
    | _, _, _ => s
  t.beginMove f b .valves stage.position

/-- An abort cause reaches the backwash of filter `f` (R125, R126). -/
def State.abort (s : State) (f : FilterIx) (cause : AbortCause) : State :=
  match s.backwashOf f with
  | none => s
  | some b =>
    if b.stage = .return then s
    else
      let t := if s.seq.pumpRun then
          let u := (s.setPb false).setPump false
          u.originate u.pumpEntry 0
        else s
      match b.abort with
      | none =>
        t.enterStage f { b with abort := some (cause, b.stage) }
          (if cause = .supervisorAbort ∧ (b.stage = .wash ∨ b.stage = .settle)
            then .rinse else .return)
      | some (first, _) =>
        if first = .supervisorAbort ∧ cause ≠ .supervisorAbort ∧ b.stage = .rinse
        then t.enterStage f b .return else t

/-- The tank levels are judged for filter `f`, if it is in WASH (R123). -/
def State.judgeTanks (s : State) (f : FilterIx) : State :=
  match s.backwashOf f, s.tankAbort with
  | some b, some c => if b.stage = .wash then s.abort f c else s
  | _, _ => s

/-- The backwash enters WASH, where the tank levels are judged at once (R119, R123). -/
def State.enterWash (s : State) (f : FilterIx) (b : Backwash) : State :=
  (s.enterStage f b .wash).judgeTanks f

/-- A dwell of the backwash ends and its next step begins (R117-R121). -/
def State.dwellEnded (s : State) (f : FilterIx) (b : Backwash) : State :=
  match b.stage with
  | .scour => s.enterWash f b
  | .wash => ((s.setPb false).setPump false).beginMove f b .pump 0
  | .settle => s.enterStage f b .rinse
  | .rinse => (s.updFilter f fun q => { q with unrinsed := false }).enterStage f
      { b with rinsed := true } .return
  | .isolate | .return => s

/-- A dwell begins; one of 0 s ends in the event that starts it (R117). -/
def State.beginDwell (s : State) (f : FilterIx) (b : Backwash) (seconds : Nat) : State :=
  if seconds = 0 then s.dwellEnded f b
  else s.putFilterState f (.backwash { b with step := .dwell seconds })

/-- SERVICE is confirmed in RETURN: the backwash ends completed (R122) or aborted (R128). -/
def State.endBackwash (s : State) (f : FilterIx) (b : Backwash) : State :=
  let t := s.putFilterState f .inService
  match b.abort with
  | none => (t.endCompleted f).notify ⟨.backwashDone, .filter, f.val + 1, .completed, b.elapsed⟩
  | some (c, at') => (t.endAborted f).notify
      ⟨.backwashAborted, .filter, f.val + 1, c.cause, at'.number⟩

/-- A move of filter `f`'s backwash is confirmed and the next step begins in the same event (R117-R122);
PB goes on with the confirmation of WASH if the plant stop input is released (R120). -/
def State.moveConfirmed (s : State) (f : FilterIx) (b : Backwash) (o : MoveObject) (value : Nat) :
    State :=
  let c := s.tables.filters.get f
  match b.stage, o with
  | .isolate, .valves => if 0 < c.scourTime then s.enterStage f b .scour else s.enterWash f b
  | .scour, .valves => s.beginDwell f b c.scourTime
  | .wash, .valves => ((s.setPb (!s.pins.plantStop)).setPump true).beginMove f b .pump 1
  | .wash, .pump => if value = 1 then s.beginDwell f b c.washTime else s.enterStage f b .settle
  | .settle, .valves => s.beginDwell f b c.settleTime
  | .rinse, .valves => s.beginDwell f b c.rinseTime
  | .return, .valves => s.endBackwash f b
  | .isolate, .pump | .scour, .pump | .settle, .pump | .rinse, .pump | .return, .pump => s

/-! ## Faults (R115, R129, R130) -/

/-- The FILTER_FAULT notice (R115). -/
def State.filterFaultNotice (s : State) (f : FilterIx) (reason : FilterFault) (value : Nat) : State :=
  s.notify ⟨.filterFault, .filter, f.val + 1, reason.cause, value⟩

/-- A RETURN move expires: NO_RETURN, the faulted end (R129). -/
def State.noReturnFault (s : State) (f : FilterIx) : State :=
  ((s.putFilterState f (.faulted .noReturn)).endFaulted f).filterFaultNotice f .noReturn 6

/-- The valve station of the filter in BACKWASH is cut off: LOST (R130, R127). UNRINSED joins the notice queue
before the notices of the Dose Gate on the stage's report, which is the model's choice (log entry 6). -/
def State.lostFault (s : State) (f : FilterIx) (b : Backwash) : State :=
  let t := s.setPb false
  let t := if t.entryCutOff t.pumpEntry then t else t.originate t.pumpEntry 0
  let t := t.setPump false
  let t := if b.wetted && !b.rinsed then t.unrinsedNotice f .unreachable b.stage else t
  ((t.putFilterState f (.faulted .lost)).endFaulted f).filterFaultNotice f .lost b.stage.number

/-- A service attempt ends by its timer (R115). -/
def State.attemptExpired (s : State) (f : FilterIx) : State :=
  (s.updFilter f fun q => { q with state := .faulted .noReturn, attempt := none }).filterFaultNotice
    f .noReturn 0

/-- A service attempt starts: SERVICE is originated (R114, R131). -/
def State.startAttempt (s : State) (f : FilterIx) : State :=
  (s.updFilter f fun q => { q with
    attempt := some (s.tables.filters.get f).travelLimit }).originate (s.valveEntry f) 1

/-! ## Selection and grant (R106, R107, R116) -/

/-- The first source present, in the order of the BACKWASH_GRANTED notice (R107). -/
def RequestSet.first (r : RequestSet) : Cause :=
  if r.dpUrgent then .dpUrgent else if r.dp then .dp else if r.hours then .hours else .manual

/-- The pending check of filter `f`, if one stands, is cancelled with no verdict (R107, R111); where that
ends the suppression, DP and DP_URGENT are judged afresh (R97, R98). -/
def State.cancelCheck (s : State) (f : FilterIx) : State :=
  if (s.arbiter.filters.get f).check.isSome then
    (s.updArb f fun a => { a with check := none }).rejudgeDp f
  else s

/-- The grant of the backwash pump to filter `f` (R107, R116): BUSY, its pending check cancelled, BACKWASH
at stage ISOLATE with the move to SHUT, BACKWASH_GRANTED. The grant itself does not change the request
set; the cancelled check may, and the notice names the first source of the set that was selected by: log
entry 15 (DEDUCED). -/
def State.grant (s : State) (f : FilterIx) : State :=
  let a := s.arbiter.filters.get f
  let t : State := { s with arbiter := { s.arbiter with busy := some f } }
  let t := t.cancelCheck f
  let t := t.beginMove f ⟨.isolate, .dwell 0, none, false, false, 0⟩ .valves Stage.isolate.position
  t.notify ⟨.backwashGranted, .filter, f.val + 1, a.requests.first, a.rank⟩

/-- At the end of an event that changed an input of eligibility: a FREE Arbiter grants the winner, if
any filter is eligible (R106, R107). -/
def State.arbitrate (s : State) : State :=
  match s.arbiter.busy with
  | some _ => s
  | none =>
    match s.winner with
    | none => s
    | some f => s.grant f

/-! ## Reports -/

/-- The Sequencer takes a class report of circuit `c`: STARVED (R124). -/
def State.seqFlow (s : State) (c : CircuitIx) : State :=
  if (s.flowClass c).starved then
    s.forFilters fun s f =>
      if (s.tables.filters.get f).circuit = c then s.abort f .starved else s
  else s

/-- The Sequencer takes the report that segment `g` is cut off (R130). -/
def State.seqCutOff (s : State) (g : SegIx) : State :=
  s.forFilters fun s f =>
    match s.backwashOf f with
    | none => s
    | some b =>
      if s.segOfEntry (s.valveEntry f) = some g then s.lostFault f b
      else if s.segOfEntry s.pumpEntry = some g then s.abort f .unreachable
      else s

/-- The reading of slot `k` was `before`: a change is reported to the slot's reading blocks (R35). A tank
level reaches the Sequencer before the Arbiter, which is the model's choice (log entry 6). A report of a DP
slot is judged also while the filter is in BACKWASH (R97), where R107 says that the sources stay as they
are: log entry 15 (DEDUCED). -/
def State.reportSlot (s : State) (k : SlotIx) (before : Option Nat) : State :=
  if s.reading k = before then s
  else if k.val < 12 then s.gateReading k
  else match ixFrom 12 8 k.val with
    | some f => (s.rejudgeDp f).arbitrate
    | none => (s.forFilters State.judgeTanks).arbitrate

/-- The flow class of circuit `c` changed (R27): the FLOW_CHANGE notice was sent by the Flow Unit; the
Dose Gate and the Sequencer take the report. R27 gives no order among the blocks: the Dose Gate first, then
the Sequencer, then the Arbiter is the model's choice (log entry 6). -/
def State.reportClass (s : State) (c : CircuitIx) : State :=
  (s.gateFlow c).seqFlow c

/-- The state of segment `g` changed (R7): the Dose Gate, the Sequencer and the Arbiter take the report.
R7 gives no order among the blocks: this one is the model's choice (log entry 6). -/
def State.reportSegment (s : State) (g : SegIx) : State :=
  let t := s.gateSegment g
  (if (t.segState g).cutOff then t.seqCutOff g else t).arbitrate

/-! ## Readings (R38, R40, R44) -/

/-- A READING_FAULT notice for slot `k` (R40). -/
def State.readingFault (s : State) (k : SlotIx) (cause : Cause) (value : Nat) : State :=
  s.notify ⟨.readingFault, .slot, k.val, cause, value⟩

/-- Slot `k` ends its substitute (R44, R45, R46): it takes its underlying fields, with SUBSTITUTE_EXPIRED
and, where it takes FAULTY or STALE, READING_FAULT; the change is reported (R35). That both notices join the
queue before those of the Dose Gate on the report (CLAMPED, REFUSED) is the model's choice (log entry 6). -/
def State.endSubstitute (s : State) (k : SlotIx) (cause : Cause) : State :=
  let x := s.slots.get k
  match x.sub with
  | none => s
  | some u =>
    let t := (s.putSlot k { x with sub := none }).notify
      ⟨.substituteExpired, .slot, k.val, cause, u.value⟩
    let t := match x.base.state with
      | .faulty c => t.readingFault k c.cause ((x.base.held.map Held.value).getD 0)
      | .stale => t.readingFault k .stale ((x.base.held.map Held.age).getD 0)
      | .absent | .valid => t
    t.reportSlot k (some u.value)

/-! ## The flags (R159, R160) -/

/-- An evaluation of the flags: every flag is judged; then each changed OPEN flag switches programmes in
FALLBACK (R87), and the Arbiter takes the changed WASH_WINDOW flags (R106). That the Runner comes before the
Arbiter, and the circuits in the order of their numbers, is the model's choice (log entry 6). -/
def State.evaluate (s : State) : State :=
  let t := s.updClock fun c => { c with
    openFlags := .ofFn s.openDue
    washFlags := .ofFn s.washDue }
  let t := if s.modeNow = .fallback then
      (List.finRange 6).foldl (fun t c =>
        if s.clock.openFlags.get c = s.openDue c then t else t.switchProgrammes c) t
    else t
  if t.clock.washFlags = s.clock.washFlags then t else t.arbitrate

end Sys2Proof.Machine
end

