-- ==== Sys2Proof/Machine/ModeOps.lean ====
section
/-!
DEFINITION. The shared operations of the Mode Controller (08) and of the restore (07 section 7.7): a
change of mode with what each block does on its report, the entries to LOCKOUT and FALLBACK, the
start-up decision, and a reset.
-/

namespace Sys2Proof.Machine

/-! ## The report of a new mode (R135) -/

/-- The causes of line `i` after a change from `old` to the present mode: HOLD and LOCKOUT follow the mode
(R69); LIMIT is absent in COMMISSION and is judged on leaving it (R65, R70). -/
def State.modeCauses (s : State) (old : Mode) (i : LineIx) : Causes :=
  let c := (s.gate.get i).causes
  { c with
    hold := s.modeNow == .hold
    lockout := s.modeNow == .lockout
    limit := if old = .commission ∨ s.modeNow = .commission then s.judgeLimit i c.limit
      else c.limit }

/-- The Dose Gate takes the new mode (R69, R70), with the requests it sets on entry to FALLBACK and on
the return to SUPERVISED (R59). -/
def State.gateMode (s : State) (old : Mode) : State :=
  s.forLines fun s i =>
    let t := s.applyCauses i (s.modeCauses old i)
    if t.modeNow = .fallback then
      if (t.tables.lines.get i).enabled && !t.hasDue i then t.zeroRequest i else t
    else if old = .fallback ∧ t.modeNow = .supervised ∧ (t.gate.get i).source = .programme then
      t.putLine i { t.gate.get i with source := .supervisor }
    else t

/-- The Programme Runner takes the new mode: every programme running stops with no notice (R85, R86,
R88); on entry to FALLBACK every enabled line with a range for its circuit's OPEN flag starts it
(R86). -/
def State.runnerMode (s : State) : State :=
  let t : State := { s with runner := { s.runner with progs := .fill none } }
  if s.modeNow = .fallback then
    t.forLines fun t i =>
      if (t.tables.lines.get i).enabled && t.hasDue i then t.startStep i (t.dueWhich i) 0 else t
  else t

/-- The Reading Table takes the new mode: on entry to FALLBACK, HOLD or LOCKOUT every substitute ends, in
slot order (R46). -/
def State.readingMode (s : State) : State :=
  match s.modeNow with
  | .fallback | .hold | .lockout =>
    (List.finRange 22).foldl (fun t k => t.endSubstitute k .mode) s
  | .startup | .commission | .supervised => s

/-- The Sequencer takes the new mode: entry to LOCKOUT aborts a backwash (R124). -/
def State.seqMode (s : State) : State :=
  if s.modeNow = .lockout then s.forFilters fun t f => t.abort f .lockout else s

/-- The Arbiter takes the new mode: HOURS is judged for every assigned filter when the mode leaves STARTUP
(R99), and eligibility is judged (R106). -/
def State.arbMode (s : State) (old : Mode) : State :=
  (if old = .startup then s.forFilters State.rejudgeHours else s).arbitrate

/-- The mode becomes `new` (R135): the permits follow it at once (R55), PB goes off with LOCKOUT (R149),
the MODE_CHANGE notice is sent, and the blocks take the report, in the order of log entry 6. -/
def State.changeMode (s : State) (new : ModeState) (cause : Cause) : State :=
  let old := s.modeNow
  let t : State := { s with mode := { s.mode with state := new } }
  let t := t.refreshPermits
  let t := if new.mode = .lockout then t.setPb false else t
  let t := t.notify ⟨.modeChange, .mode, new.mode.number, cause, old.number⟩
  ((((t.gateMode old).runnerMode).readingMode).seqMode).arbMode old

/-! ## Lockout and fallback (R146, R149) -/

/-- The lockout flag, its cause and the output, which is the flag (R149 steps 2 and 3, R150). -/
def State.setLockout (s : State) (cause : LockCause) : State :=
  let t := s.updRetained fun r => { r with lockoutFlag := true, lockoutCause := some cause }
  { t with pins := { t.pins with lockout := true } }

/-- Entry to LOCKOUT from an event that sets the flag (R149). -/
def State.enterLockout (s : State) (lock : LockCause) (cause : Cause) : State :=
  (s.setLockout lock).changeMode .lockout cause

/-- Liveness at its start (R140, R145): the parameter's period takes effect (R144). -/
def State.freshLiveness (s : State) : Liveness :=
  ⟨s.tables.params.livenessPeriod, 0, false⟩

/-- The period in force for the liveness that stands (R145, R147). -/
def State.periodNow (s : State) : Nat :=
  match s.mode.state with
  | .supervised l => l.period
  | .fallback f => f.period
  | .startup | .commission | .hold | .lockout => s.tables.params.livenessPeriod

/-- The recovery count rises by 1 and stops at 5 (R137, R136, R146). -/
def State.raiseRecovery (s : State) : State :=
  s.updRetained fun r => { r with recoveryCount := min Config.recoveryCap (r.recoveryCount + 1) }

/-- Entry to FALLBACK from SUPERVISED (R146), or to LOCKOUT in its place. -/
def State.enterFallback (s : State) (cause : Cause) : State :=
  let t := s.raiseRecovery
  if t.tables.params.recoveryLimit < t.mode.retained.recoveryCount then
    t.enterLockout .recoveryLimit .recoveryLimit
  else
    t.changeMode (.fallback ⟨0, t.tables.params.fallbackLimit, 0, none, s.periodNow⟩) cause

/-! ## The start (R132, R133, R137, R138) -/

/-- The start-up decision (R138). -/
def State.startUpDecision (s : State) : State :=
  let r := s.mode.retained
  if r.lockoutFlag then s.changeMode .lockout .lockoutFlag
  else if s.tables.params.recoveryLimit < r.recoveryCount then
    s.enterLockout .recoveryLimit .recoveryLimit
  else if r.commissioned = false then s.changeMode .commission .notCommissioned
  else if s.pins.keyswitch then s.changeMode .commission .keyswitch
  else s.changeMode .hold .commissioned

/-- The restore is complete, and the start-up decision is taken in the same event (R133, R138). -/
def State.completeRestore (s : State) : State :=
  let t : State := { s with seq := { s.seq with restore := { s.seq.restore with running := false } } }
  t.startUpDecision

/-- An event that settled a restore object completes the restore if it was the last (R133). -/
def State.checkRestore (s : State) : State :=
  if s.seq.restore.running = true ∧ s.unsettled = 0 then s.completeRestore else s

/-- The restore commands of the objects whose stations lie on segment `g` are offered: filters, lines, the
backwash pump (R132, R52). -/
def State.offerRestore (s : State) (g : SegIx) : State :=
  let t := s.forFilters fun s f =>
    if (s.tables.filters.get f).assigned = true ∧ s.segOfEntry (s.valveEntry f) = some g then
      s.originate (s.valveEntry f) 1 else s
  let t := t.forLines fun s i =>
    if (s.tables.lines.get i).enabled = true ∧ s.segOfEntry (s.lineEntry i) = some g then
      s.originate (s.lineEntry i) 0 else s
  if t.segOfEntry t.pumpEntry = some g then t.originate t.pumpEntry 0 else t

/-- Segment `g` has become UP: at its first time since the reset, with the restore running, its restore
commands are offered (R132). -/
def State.firstUp (s : State) (g : SegIx) : State :=
  if s.seq.restore.seenUp.get g then s
  else
    let t : State := { s with seq := { s.seq with restore := { s.seq.restore with
      seenUp := s.seq.restore.seenUp.set g true } } }
    if t.seq.restore.running then t.offerRestore g else t

/-- The line record after a reset, before the standing causes are taken (R52). -/
def LineCfg.atReset (c : LineCfg) : Line :=
  if c.enabled then
    { Line.atReset with
      state := .stopped, confirmation := .awaiting (some Config.restoreSeconds) }
  else Line.atReset

/-- The line record once the conditions standing at the reset have added their causes (R52). -/
def State.lineAtReset (s : State) (i : LineIx) : Line :=
  let c := s.tables.lines.get i
  let l := c.atReset
  if c.enabled then
    let k := s.standingCauses i
    { l with causes := k, state := if k.any then .inhibited else .stopped }
  else l

/-- The filter record after a reset (R113, R132). -/
def FilterCfg.atReset (c : FilterCfg) : SeqFilter :=
  ⟨.unused, if c.assigned then some Config.restoreSeconds else none, false, none⟩

/-- The tables that a reset loads: the stored ones, or the defaults (R167). -/
def Store.load (m : Store) : Tables :=
  if m.valid then m.tables else Tables.defaults

/-- What a reset of kind `cause` makes of the retained record (R137). -/
def Retained.atReset (r : Retained) (cause : StartCause) : Retained :=
  { r with
    startCause := cause
    recoveryCount :=
      match cause with
      | .resetPin | .restartRequest => min Config.recoveryCap (r.recoveryCount + 1)
      | .powerOn | .commit => r.recoveryCount }

/-- What a reset of kind `cause` makes of the time (R155); the flags are evaluated after. -/
def Clock.atReset (c : Clock) (cause : StartCause) : Clock :=
  match cause with
  | .powerOn => { c with day := 0, minute := 0, second := 0, valid := false }
  | .resetPin | .restartRequest | .commit => c

/-- Every block but the Dose Gate after a reset, with the flags evaluated and no report made of them
(R4, R14-R17, R19, R26, R30, R47, R80, R91, R92, R95, R113, R137, R155, R159, R160, R167). -/
def State.resetBlocks (s : State) (cause : StartCause) : State :=
  let retained := s.mode.retained.atReset cause
  let tables := s.mgmt.store.load
  let t : State := { s with
    pins := { s.pins with permits := .fill false, pb := false, lockout := retained.lockoutFlag }
    ports := ⟨.fill Segment.atReset, [], [], [], none⟩
    tables := tables
    mgmt := ⟨⟨!s.mgmt.store.valid, false, false, false, false⟩, s.mgmt.store, none⟩
    flow := ⟨0, .fill ⟨0, 0, false⟩, .fill Circuit.atReset⟩
    slots := .fill ⟨⟨.absent, none⟩, none⟩
    gate := .fill Line.atReset
    runner := ⟨.fill none, .fill ⟨0, 0⟩, .fill none⟩
    arbiter := ⟨none, .ofFn ArbFilter.atReset⟩
    seq := ⟨.ofFn fun f => (tables.filters.get f).atReset, false, none,
      ⟨true, Config.restoreSeconds, .fill false, true⟩⟩
    mode := ⟨.startup, none, retained⟩
    clock := s.clock.atReset cause }
  let t : State := { t with seq := { t.seq with restore := { t.seq.restore with
    pumpSettled := t.pumpEntry.isNone } } }
  t.updClock fun c => { c with openFlags := .ofFn t.openDue, washFlags := .ofFn t.washDue }

/-- A reset (R137): every block takes its reset values, the enabled lines take the causes that stand, and
the restore begins, or is complete at once where nothing is to be restored (R133). The queue of commands
and the two inputs stay (log entry 25). -/
def State.resetPart (s : State) (cause : StartCause) : State :=
  let t := s.resetBlocks cause
  let u : State := { t with gate := .ofFn t.lineAtReset }
  u.checkRestore

end Sys2Proof.Machine
end

