-- ==== Sys2Proof/Machine/Frames.lean ====
section
/-!
DEFINITION. The frames that arrive and leave (R1-R3, R9-R18, R37, R38, R71, R72, R115, R117, R161).
-/

namespace Sys2Proof.Machine

/-! ## Routing (R9, R11) -/

/-- The number of a port in notices (R9). -/
def portIndex : Port → Nat
  | .supervisor => 0
  | .segment g => g.val + 1

/-- FOREIGN_FRAME for a frame discarded at a port (R9). -/
def State.foreign (s : State) (port : Port) (kind : FrameKind) (source : Byte) : State :=
  s.notify ⟨.foreignFrame, .port, portIndex port, .frame kind, source.toNat⟩

/-- MISPLACED_STATION for a frame discarded at a segment port (R11). -/
def State.misplaced (s : State) (g : SegIx) (kind : FrameKind) (source : Byte) : State :=
  s.notify ⟨.misplacedStation, .port, g.val + 1, .frame kind, source.toNat⟩

/-- A frame that completes on segment port `g`: discarded while the segment is not UP or an address is
invalid (R3), then judged by its source and its kind (R11); `accept` is its handling where it is a SAMPLE
or ECHO to the supervisor. -/
def State.segFrame (s : State) (g : SegIx) (kind : FrameKind) (source destination : Byte)
    (accept : State → State) : State :=
  if s.segState g ≠ .up ∨ source.isAddress = false ∨ destination.isAddress = false then s
  else if s.segOf source.toNat ≠ some g then s.misplaced g kind source
  else match kind with
    | .sample | .echo => if destination = 0 then accept s else s.foreign (.segment g) kind source
    | .command | .mgmtReq => s.foreign (.segment g) kind source
    | .notice | .mgmtRsp => s

/-- FRAME_DISCARDED (R3): the frame is dropped at its port; no notice, no condition. -/
def execFrameDiscarded (_port : Port) (_bytes : List Byte) (s : State) :
    Host.Outcome State Fault Refusal :=
  .next s

/-- FOREIGN_FRAME (R9, R11): discarded with its notice. A frame whose source is not listed on its segment
is misplaced first (R11); one that is not foreign is not this event and changes nothing (log entry 2). -/
def execForeignFrame (port : Port) (kind : FrameKind) (source destination : Byte) (s : State) :
    Host.Outcome State Fault Refusal :=
  .next (match port with
    | .supervisor =>
      if source.isAddress && destination.isAddress && isForeign .supervisor kind source destination
      then s.foreign .supervisor kind source else s
    | .segment g => s.segFrame g kind source destination id)

/-- MISPLACED_STATION (R11): a frame from a segment whose source is not listed there. -/
def execMisplacedStation (g : SegIx) (kind : FrameKind) (source destination : Byte) (s : State) :
    Host.Outcome State Fault Refusal :=
  .next (if s.segOf source.toNat = some g then s else s.segFrame g kind source destination id)

/-! ## Station commands (R10, R13, R71) -/

/-- A supervisor command to a CIRC_PUMP(c) entry (R71). -/
def State.circulationCommand (s : State) (k : Fin 48) (g : SegIx) (c : CircuitIx) (m : Cmd) : State :=
  if m.value = 0 then
    if s.backwashOn c then s.refuse .entry k.val .backwashActive m.value
    else
      let t := (s.gateCirculation c true).updCircuit c fun x => { x with circulation := .stopped }
      (t.forwardDown g m).arbitrate
  else if m.value = 1 then
    let t := (s.forwardDown g m).updCircuit c fun x => { x with circulation := .run }
    (t.gateCirculation c false).arbitrate
  else s.refuse .entry k.val .badValue m.value

/-- The handling of a supervisor command by its admission entry (R13). -/
def State.admitByEntry (s : State) (k : Fin 48) (g : SegIx) (m : Cmd) : State :=
  let e := s.tables.admission.get k
  match e.object with
  | .doseLine => match ixFrom 1 12 e.objectIndex with
    | some i => s.lineCommand k g i m
    | none => s
  | .filterValves | .backwashPump =>
    if s.modeNow = .commission then s.forwardDown g m else s.refuse .entry k.val .owned m.value
  | .circPump => match ixFrom 1 6 e.objectIndex with
    | some c => s.circulationCommand k g c m
    | none => s
  | .pass => s.forwardDown g m
  | .closed => s.refuse .entry k.val .closedEntry m.value

/-- A supervisor COMMAND to a station (R10). -/
def State.stationCommand (s : State) (m : Cmd) : State :=
  let key := m.station * 8 + m.channel
  match s.segOf m.station with
  | none => s.refuse .key key .unknownStation m.value
  | some g =>
    if (s.segState g).cutOff then s.refuse .key key .unreachable m.value
    else if Config.forwardedPlaces ≤ (s.ports.segments.get g).forwarded.length then
      s.refuse .key key .congested m.value
    else match s.lookupKey m.station m.channel with
      | some k => s.admitByEntry k g m
      | none =>
        if s.tables.params.unlisted = .pass then s.forwardDown g m
        else s.refuse .key key .unlisted m.value

/-- STATION_COMMAND (R10): the command of a COMMAND frame from the supervisor to a station; to 0 or 121 it
is foreign (R9), to 122 and above it fails integrity (R3). -/
def execStationCommand (destination : Byte) (channel : Fin 8) (value : Half) (s : State) :
    Host.Outcome State Fault Refusal :=
  .next (
    if destination.isStation then
      s.stationCommand ⟨destination.toNat, channel.val, value.toNat⟩
    else if destination.isAddress then s.foreign .supervisor .command 0
    else s)

/-! ## Samples (R37, R38, R40, R43) -/

/-- What a sample makes of the fields it acts on (R38); a quality other than 0 and 1 is FAULT (R37). -/
def Reading.sample (r : Reading) (c : SlotSetting) (value : Nat) (quality : Byte) : Reading :=
  if quality = 0 then
    if c.minimum ≤ value ∧ value ≤ c.maximum then ⟨.valid, some ⟨value, 0⟩⟩
    else { r with state := .faulty .range }
  else if quality = 1 then { r with state := .faulty .cal }
  else { r with state := .faulty .fault }

/-- A sample is applied to slot `k`: to its underlying fields while a substitute stands (R43), else to the
slot, with READING_FAULT on entering FAULTY (R40) and the report of a change (R35). That the notice joins
the queue before those of the reading blocks is the model's choice (log entry 6). -/
def State.applySample (s : State) (k : SlotIx) (value : Nat) (quality : Byte) : State :=
  let x := s.slots.get k
  let r := x.base.sample (s.tables.slots.get k) value quality
  let t := s.putSlot k { x with base := r }
  match x.sub with
  | some _ => t
  | none =>
    let t := match x.base.state, r.state with
      | .faulty _, _ => t
      | _, .faulty c => t.readingFault k c.cause value
      | _, _ => t
    t.reportSlot k x.effective

/-- SAMPLE (R11, R37): applied to its mapped slot, if the sample map has its key, and forwarded up
(R16). -/
def execSample (g : SegIx) (source : Byte) (channel : Fin 8) (value : Half) (quality : Byte)
    (s : State) : Host.Outcome State Fault Refusal :=
  .next (s.segFrame g .sample source 0 fun s =>
    let t := match s.lookupSlot source.toNat channel.val with
      | some k => s.applySample k value.toNat quality
      | none => s
    t.forwardUp ⟨0, source, .sample, channel, bytesOf 2 value.toNat ++ [quality]⟩)

/-! ## Echoes (R12, R72, R115, R117, R132) -/

/-- An echo for line `i` (R72). -/
def State.lineEcho (s : State) (i : LineIx) (v : Nat) : State :=
  let l := s.gate.get i
  let t := s.putLine i { l with lastEcho := some v }
  if l.state = .disabled ∨ l.state = .faulted then t
  else match l.confirmation with
    | .awaiting _ =>
      if v = l.admitted then
        s.putLine i { l with lastEcho := some v, confirmation := .confirmed, confirmed := v }
      else t
    | .confirmed =>
      if v = l.admitted then t
      else t.faultLine i (if l.admitted = 0 ∧ 0 < v then .rogue else .mismatch) v

/-- An echo of filter `f`'s valve set: a pending service attempt takes SERVICE (R115), a move of its
backwash its awaited position (R117). That the last valve echo is recorded also while the filter is unassigned
is the model's choice (log entry 29). -/
def State.valveEcho (s : State) (f : FilterIx) (v : Nat) : State :=
  let q := s.seq.filters.get f
  let t := s.updFilter f fun q => { q with lastEcho := some v }
  match q.state, q.attempt with
  | .backwash b, _ => match b.step with
    | .move .valves awaited _ => if v = awaited then t.moveConfirmed f b .valves v else t
    | .move .pump _ _ | .dwell _ => t
  | _, some _ =>
    if v = 1 then
      (t.updFilter f fun q => { q with attempt := none }).putFilterState f .inService
    else t
  | _, none => t

/-- An echo of the backwash pump: it settles the pump's restore object (R132) or confirms a pump move
(R117). -/
def State.pumpEcho (s : State) (v : Nat) : State :=
  let t : State := { s with seq := { s.seq with lastPumpEcho := some v } }
  let t : State := if s.seq.restore.running = true ∧ v = 0 then
      { t with seq := { t.seq with restore := { t.seq.restore with pumpSettled := true } } }
    else t
  t.forFilters fun t f =>
    match s.backwashOf f with
    | none => t
    | some b => match b.step with
      | .move .pump awaited _ => if v = awaited then t.moveConfirmed f b .pump v else t
      | .move .valves _ _ | .dwell _ => t

/-- An echo is consumed by the owner of the object its key names (R12). -/
def State.consumeEcho (s : State) (station channel v : Nat) : State :=
  match s.lookupKey station channel with
  | none => s
  | some k =>
    let e := s.tables.admission.get k
    match e.object with
    | .doseLine => match ixFrom 1 12 e.objectIndex with
      | some i => s.lineEcho i v
      | none => s
    | .filterValves => match ixFrom 1 8 e.objectIndex with
      | some f => s.valveEcho f v
      | none => s
    | .backwashPump => s.pumpEcho v
    | .circPump | .pass | .closed => s

/-- ECHO (R11, R12): consumed by its owner and forwarded up (R16). It may settle the restore (R133), and
the Arbiter judges eligibility at the end of the event (R106). -/
def execEcho (g : SegIx) (source : Byte) (channel : Fin 8) (value : Half) (s : State) :
    Host.Outcome State Fault Refusal :=
  .next (s.segFrame g .echo source 0 fun s =>
    let t := s.consumeEcho source.toNat channel.val value.toNat
    (t.checkRestore.arbitrate).forwardUp ⟨0, source, .echo, channel, bytesOf 2 value.toNat⟩)

/-! ## Requests that are not executed (R17, R161) -/

/-- A request that finds no free response place is discarded (R17). -/
def State.dropRequest (s : State) : State :=
  s.updConditions fun c => { c with responsesDropped := true }

/-- REQUEST_DISCARDED (R17): no place is free, so RESPONSES_DROPPED is set; where a place is free this is
not the event (log entry 2). -/
def execRequestDiscarded (_code _tag : Byte) (s : State) : Host.Outcome State Fault Refusal :=
  .next (if s.placesTaken < Config.responsePlaces then s else s.dropRequest)

/-- UNKNOWN_REQUEST_CODE (R161): answered BAD_ARG before any other check. -/
def execUnknownRequestCode (code tag : Byte) (s : State) : Host.Outcome State Fault Refusal :=
  .next (
    if code.isRequestCode then s
    else if s.placesTaken < Config.responsePlaces then s.respond ⟨code, tag, .badArg, []⟩
    else s.dropRequest)

/-! ## The transmitters (R18) -/

/-- The supervisor port's transmitter starts its next frame: a response, a notice, a forwarded frame
(R18). -/
def State.supervisorStart (s : State) : State :=
  let p := s.ports
  match p.responses, p.notices, p.forwarded with
  | r :: rs, _, _ => { s with ports := { p with responses := rs, started := some r.frame } }
  | [], n :: ns, _ => { s with ports := { p with notices := ns, started := some n.frame } }
  | [], [], f :: fs => { s with ports := { p with forwarded := fs, started := some f } }
  | [], [], [] => s

/-- A segment port's transmitter, when UP, starts its next frame: an own one, then a forwarded one
(R18). -/
def Segment.start (x : Segment) : Segment :=
  if x.state = .up then
    match x.own, x.forwarded with
    | c :: cs, _ => { x with own := cs, started := some (c.frame Config.ownAddress) }
    | [], c :: cs => { x with forwarded := cs, started := some (c.frame 0) }
    | [], [] => x
  else x

/-- TRANSMIT_START (R18): the port's transmitter is free and starts its next frame, if it has one. -/
def execTransmitStart (port : Port) (s : State) : Host.Outcome State Fault Refusal :=
  .next (match port with
    | .supervisor => s.supervisorStart
    | .segment g => s.updSegment g Segment.start)

end Sys2Proof.Machine
end

