-- ==== Sys2Proof/Machine/Segments.lean ====
section
/-!
DEFINITION. The segment states (R4, R5, R6).
-/

namespace Sys2Proof.Machine

/-- Segment `g` enters a state with its timer, and keeps its queues (R4). -/
def State.putSegState (s : State) (g : SegIx) (state : SegState) (timer : Option Nat) : State :=
  s.updSegment g fun x => { x with state := state, timer := timer }

/-- Segment `g` enters ISOLATED or FORCED: its timer is cancelled, both queues are emptied and
SEGMENT_LOST is sent; the change is reported (R4-R7). That the notice comes before those of the blocks that
take the report is the model's choice (log entry 6). -/
def State.cutSegment (s : State) (g : SegIx) (state : SegState) (cause : Cause) : State :=
  let t := s.updSegment g fun x =>
    { x with state := state, timer := none, forwarded := [], own := [] }
  (t.notify ⟨.segmentLost, .segment, g.val + 1, cause, 0⟩).reportSegment g

/-- Segment `g` enters RECOVERING with its timer at 5 s (R4, R5). -/
def State.recoverSegment (s : State) (g : SegIx) : State :=
  (s.putSegState g .recovering (some Config.recoverySeconds)).reportSegment g

/-- SIGNAL_LOSS (R4): UP becomes LOST, RECOVERING becomes ISOLATED. -/
def execSignalLoss (g : SegIx) (s : State) : Host.Outcome State Fault Refusal :=
  .next (match s.segState g with
    | .up => (s.putSegState g .lost (some Config.lossSeconds)).reportSegment g
    | .recovering => s.cutSegment g .isolated .signal
    | .lost | .isolated | .forced => s)

/-- SIGNAL_RETURN (R4): LOST becomes UP, ISOLATED becomes RECOVERING. -/
def execSignalReturn (g : SegIx) (s : State) : Host.Outcome State Fault Refusal :=
  .next (match s.segState g with
    | .lost => (s.putSegState g .up none).reportSegment g
    | .isolated => s.recoverSegment g
    | .up | .recovering | .forced => s)

/-- LOSS_TIMER_EXPIRY (R4): LOST becomes ISOLATED. The timer runs from an instant, so the sender gives its
end (log entry 4). -/
def execLossTimerExpiry (g : SegIx) (s : State) : Host.Outcome State Fault Refusal :=
  .next (match s.segState g with
    | .lost => s.cutSegment g .isolated .signal
    | .up | .isolated | .recovering | .forced => s)

/-- RECOVERY_TIMER_EXPIRY (R4): RECOVERING becomes UP, SEGMENT_UP is sent, and at the first time since the
reset the restore commands are offered (R132). -/
def execRecoveryTimerExpiry (g : SegIx) (s : State) : Host.Outcome State Fault Refusal :=
  .next (match s.segState g with
    | .recovering =>
      let t := (s.putSegState g .up none).notify ⟨.segmentUp, .segment, g.val + 1, .up, 0⟩
      (t.firstUp g).reportSegment g
    | .up | .lost | .isolated | .forced => s)

end Sys2Proof.Machine
end

