-- ==== Sys2Proof/Machine/FlowUnit.lean ====
section
/-!
DEFINITION. The Flow Unit's events (R19, R20, R24-R29).
-/

namespace Sys2Proof.Machine

/-- FLOW_PULSE (R19, R20): the window count rises by 1 and saturates at 4095. -/
def execFlowPulse (i : InputIx) (s : State) : Host.Outcome State Fault Refusal :=
  .next { s with flow := { s.flow with inputs := s.flow.inputs.upd i fun x =>
    { x with windowCount := min Config.pulseCap (x.windowCount + 1) } } }

/-- An input at the window end (R19, R20). -/
def FlowInput.endWindow (x : FlowInput) : FlowInput :=
  ⟨0, x.windowCount, decide (Config.pulseCap ≤ x.windowCount)⟩

/-- OVERRANGE is sent where an input's flag goes from clear to set (R20). -/
def State.overrangeNotices (s : State) : State :=
  (List.finRange 8).foldl (fun t i =>
    let x := s.flow.inputs.get i
    if x.overrange = false ∧ x.endWindow.overrange = true then
      t.notify ⟨.overrange, .flowInput, i.val + 1, .saturated, Config.pulseCap⟩
    else t) s

/-- The flow sum of circuit `c`: the last counts of its inputs, an overrange one counted 0 (R24). -/
def State.flowSum (s : State) (c : CircuitIx) : Nat :=
  ((List.finRange 8).map fun i =>
    let x := s.flow.inputs.get i
    if s.tables.flowInputs.get i = some c ∧ x.overrange = false then x.lastCount else 0).sum

/-- A circuit whose flow class becomes `m`: entering and leaving a starved period restart its timer
(R28). -/
def Circuit.withClass (x : Circuit) (m : FlowClass) : Circuit :=
  if m.starved = x.flowClass.starved then { x with flowClass := m }
  else { x with flowClass := m, starvedTimer := 0, starvedReported := false }

/-- Circuit `c` at the window end, judged from its own sum (R24-R26); a disabled one is left out
(R23). -/
def State.windowCircuit (s : State) (c : CircuitIx) (x : Circuit) : Circuit :=
  let cfg := s.tables.circuits.get c
  if cfg.enabled = false then x
  else
    let sum := s.flowSum c
    let m := cfg.measure sum
    let j := x.flowClass.judge x.rising m
    { x.withClass j.1 with flowSum := sum, measured := m, rising := j.2 }

/-- FLOW_CHANGE for circuit `c` with its present class (R27). -/
def State.flowChange (s : State) (c : CircuitIx) (value : Nat) : State :=
  s.notify ⟨.flowChange, .circuit, c.val + 1, (s.flowClass c).cause, value⟩

/-- The window-end event (R19, R24-R27): the inputs, the circuits, the notices, then the reports of the
changed classes (log entry 6). -/
def State.windowEnd (s : State) : State :=
  let t := s.overrangeNotices
  let t : State := { t with flow := { t.flow with
    windowSeconds := 0
    inputs := t.flow.inputs.mapIdx fun _ x => x.endWindow } }
  let t : State := { t with flow := { t.flow with circuits := t.flow.circuits.mapIdx t.windowCircuit } }
  let changed := (List.finRange 6).filter fun c => t.flowClass c != s.flowClass c
  let t := changed.foldl (fun t c => t.flowChange c (t.flow.circuits.get c).flowSum) t
  (changed.foldl State.reportClass t).arbitrate

/-- WINDOW_END (R19): the 2 s of the window have passed. -/
def execWindowEnd (s : State) : Host.Outcome State Fault Refusal :=
  .next (if Config.windowSeconds ≤ s.flow.windowSeconds then s.windowEnd else s)

/-- STARVED_LONG is due for circuit `c` (R28, R29). -/
def State.starvedLongDue (s : State) (c : CircuitIx) : Bool :=
  let x := s.flow.circuits.get c
  let cfg := s.tables.circuits.get c
  cfg.enabled && x.flowClass.starved && !x.starvedReported
    && decide (cfg.starvedLimit ≤ x.starvedTimer)

/-- STARVED_LONG (R29): the notice, once in a starved period. R22 and R29 compare a changed limit at the next
second of the timer; the row is guarded by the timer alone, so a row sent between a lowered limit and the
next second gives the notice at once: the model's choice (log entry 22). -/
def execStarvedLong (c : CircuitIx) (s : State) : Host.Outcome State Fault Refusal :=
  .next (if s.starvedLongDue c then
    (s.notify ⟨.starvedLong, .circuit, c.val + 1, (s.flowClass c).cause,
      (s.flow.circuits.get c).starvedTimer⟩).updCircuit c fun x => { x with starvedReported := true }
    else s)

end Sys2Proof.Machine
end

