-- ==== Sys2Proof/Machine/Fields.lean ====
section
/-!
DEFINITION. The fields of the working tables as SET_FIELD and GET_FIELD number and code them (R162, 10
section 10.7), the checks of a write (R162-R164 and the rule of each field), and what an accepted write
does.
-/

namespace Sys2Proof.Machine

/-! ## Codes of values (10 section 10.7) -/

/-- All ones in four bytes: none or absent (10 section 10.7). -/
def noneCode : Nat := 0xFFFFFFFF

/-- The code of yes and no (log entry 11). -/
def boolCode (b : Bool) : Nat := if b then 1 else 0

/-- The yes or no of a code (log entry 11). -/
def boolOf : Nat → Option Bool
  | 0 => some false
  | 1 => some true
  | _ => none

/-- The code of a field that may be none. -/
def optCode : Option Nat → Nat
  | some v => v
  | none => noneCode

/-- A number within the range of its field. -/
def within (lo hi v : Nat) : Option Nat :=
  if lo ≤ v ∧ v ≤ hi then some v else none

/-- The number of an object of a kind counted from 1. -/
def ixCode {n : Nat} (i : Fin n) : Nat := i.val + 1

def LineKind.code : LineKind → Nat
  | .hypo => 0 | .acid => 1 | .coag => 2

def LineKind.ofCode : Nat → Option LineKind
  | 0 => some .hypo | 1 => some .acid | 2 => some .coag
  | _ => none

def StepKind.code : StepKind → Nat
  | .rate => 0 | .batch => 1

def StepKind.ofCode : Nat → Option StepKind
  | 0 => some .rate | 1 => some .batch
  | _ => none

def EntryKind.code : EntryKind → Nat
  | .openHours => 0 | .washWindow => 1

def EntryKind.ofCode : Nat → Option EntryKind
  | 0 => some .openHours | 1 => some .washWindow
  | _ => none

/-- The place of an admission object in the list of R162. -/
def ObjKind.code : ObjKind → Nat
  | .doseLine => 0 | .filterValves => 1 | .backwashPump => 2 | .circPump => 3 | .pass => 4
  | .closed => 5

def ObjKind.ofCode : Nat → Option ObjKind
  | 0 => some .doseLine | 1 => some .filterValves | 2 => some .backwashPump
  | 3 => some .circPump | 4 => some .pass | 5 => some .closed
  | _ => none

def Policy.code : Policy → Nat
  | .pass => 0 | .refuse => 1

def Policy.ofCode : Nat → Option Policy
  | 0 => some .pass | 1 => some .refuse
  | _ => none

/-! ## Fields (R162) -/

/-- A field of the working tables: its table with its record and, where the record has several, its
number (R162). -/
inductive FieldRef where
  | directory (k : Fin 120)
  | admission (k : Fin 48) (n : Fin 5)
  | mapEntry (k : Fin 64) (n : Fin 4)
  | slotSetting (k : SlotIx) (n : Fin 3)
  | flowInput (k : InputIx)
  | circuit (k : CircuitIx) (n : Fin 5)
  | line (k : LineIx) (n : Fin 15)
  | filter (k : FilterIx) (n : Fin 12)
  | step (k : Fin 256) (n : Fin 5)
  | timetable (k : Fin 16) (n : Fin 6)
  | param (n : Fin 8)
  deriving DecidableEq, Repr

/-- Two optional numbers put together. -/
def both {α β γ : Type} (f : α → β → γ) : Option α → Option β → Option γ
  | some a, some b => some (f a b)
  | _, _ => none

/-- The field that a table code, an index and a field number name (R162); none where the table, the index
or the field is unknown. -/
def FieldRef.of (table index field : Nat) : Option FieldRef :=
  match table with
  | 0 => both (fun k (_ : Fin 1) => .directory k) (ixFrom 1 120 index) (ixFrom 1 1 field)
  | 1 => both .admission (ixFrom 0 48 index) (ixFrom 1 5 field)
  | 2 =>
    if index < 64 then both .mapEntry (ixFrom 0 64 index) (ixFrom 1 4 field)
    else both .slotSetting (ixFrom 64 22 index) (ixFrom 1 3 field)
  | 3 => both (fun k (_ : Fin 1) => .flowInput k) (ixFrom 1 8 index) (ixFrom 1 1 field)
  | 4 => both .circuit (ixFrom 1 6 index) (ixFrom 1 5 field)
  | 5 => both .line (ixFrom 1 12 index) (ixFrom 1 15 field)
  | 6 => both .filter (ixFrom 1 8 index) (ixFrom 1 12 field)
  | 7 => both .step (ixFrom 0 256 index) (ixFrom 1 5 field)
  | 8 => both .timetable (ixFrom 0 16 index) (ixFrom 1 6 field)
  | 9 => if index = 0 then (ixFrom 1 8 field).map .param else none
  | _ => none

/-! ## Reading a field -/

def AdmissionEntry.field (e : AdmissionEntry) : Fin 5 → Nat
  | 0 => boolCode e.enabled
  | 1 => e.station
  | 2 => e.channel
  | 3 => e.object.code
  | 4 => e.objectIndex

def MapEntry.field (e : MapEntry) : Fin 4 → Nat
  | 0 => boolCode e.enabled
  | 1 => e.station
  | 2 => e.channel
  | 3 => e.slot

def SlotSetting.field (c : SlotSetting) : Fin 3 → Nat
  | 0 => c.minimum
  | 1 => c.maximum
  | 2 => c.staleLimit

def CircuitCfg.field (c : CircuitCfg) : Fin 5 → Nat
  | 0 => boolCode c.enabled
  | 1 => c.fullThreshold
  | 2 => c.reducedThreshold
  | 3 => c.minFilters
  | 4 => c.starvedLimit

def LineCfg.field (c : LineCfg) : Fin 15 → Nat
  | 0 => boolCode c.enabled
  | 1 => c.kind.code
  | 2 => ixCode c.circuit
  | 3 => c.injectionPoint
  | 4 => c.maxRate
  | 5 => c.reducedFraction
  | 6 => c.blindRate
  | 7 => c.limit
  | 8 => c.hysteresis
  | 9 => c.resumeDelay
  | 10 => c.confirmLimit
  | 11 => optCode c.progA.first
  | 12 => optCode c.progA.count
  | 13 => optCode c.progB.first
  | 14 => optCode c.progB.count

def FilterCfg.field (c : FilterCfg) : Fin 12 → Nat
  | 0 => boolCode c.assigned
  | 1 => ixCode c.circuit
  | 2 => c.dpLimit
  | 3 => c.dpUrgentLimit
  | 4 => c.dpHysteresis
  | 5 => c.hoursLimit
  | 6 => c.scourTime
  | 7 => c.washTime
  | 8 => c.settleTime
  | 9 => c.rinseTime
  | 10 => c.travelLimit
  | 11 => c.checkDelay

def StepRec.field (r : StepRec) : Fin 5 → Nat
  | 0 => r.kind.code
  | 1 => r.rate
  | 2 => r.duration
  | 3 => optCode r.volume
  | 4 => boolCode r.loop

def TimeEntry.field (e : TimeEntry) : Fin 6 → Nat
  | 0 => boolCode e.enabled
  | 1 => e.days.toNat
  | 2 => e.startMinute
  | 3 => e.endMinute
  | 4 => e.circuits.toNat
  | 5 => e.kind.code

def Params.field (p : Params) : Fin 8 → Nat
  | 0 => p.livenessPeriod
  | 1 => p.recoveryLimit
  | 2 => p.fallbackLimit
  | 3 => p.unlisted.code
  | 4 => p.supplyStart
  | 5 => p.supplyStop
  | 6 => p.sumpStart
  | 7 => p.sumpStop

/-- The value of a field as it stands in the working tables (R162). -/
def Tables.readField (t : Tables) : FieldRef → Nat
  | .directory k => optCode ((t.directory.get k).map ixCode)
  | .admission k n => (t.admission.get k).field n
  | .mapEntry k n => (t.sampleMap.get k).field n
  | .slotSetting k n => (t.slots.get k).field n
  | .flowInput k => optCode ((t.flowInputs.get k).map ixCode)
  | .circuit k n => (t.circuits.get k).field n
  | .line k n => (t.lines.get k).field n
  | .filter k n => (t.filters.get k).field n
  | .step k n => (t.steps.get k).field n
  | .timetable k n => (t.timetable.get k).field n
  | .param n => t.params.field n

/-! ## A record with one field written: none where the value lies outside the field's range -/

/-- A number or none (10 section 10.7). -/
def optWithin (lo hi v : Nat) : Option (Option Nat) :=
  if v = noneCode then some none else (within lo hi v).map some

/-- An object number or none (10 section 10.7). -/
def optIx (n v : Nat) : Option (Option (Fin n)) :=
  if v = noneCode then some none else (ixFrom 1 n v).map some

/-- An admission entry written (R162). The spec bounds the object index by its object; that an index from 0 to
12 may be written whatever the object, and is held to the object where the entry is or becomes enabled
(R163), is the model's choice (log entry 17). -/
def AdmissionEntry.put (e : AdmissionEntry) (n : Fin 5) (v : Nat) : Option AdmissionEntry :=
  match n with
  | 0 => (boolOf v).map fun b => { e with enabled := b }
  | 1 => (within 1 120 v).map fun v => { e with station := v }
  | 2 => (within 0 7 v).map fun v => { e with channel := v }
  | 3 => (ObjKind.ofCode v).map fun o => { e with object := o }
  | 4 => (within 0 12 v).map fun v => { e with objectIndex := v }

def MapEntry.put (e : MapEntry) (n : Fin 4) (v : Nat) : Option MapEntry :=
  match n with
  | 0 => (boolOf v).map fun b => { e with enabled := b }
  | 1 => (within 1 120 v).map fun v => { e with station := v }
  | 2 => (within 0 7 v).map fun v => { e with channel := v }
  | 3 => (within 0 21 v).map fun v => { e with slot := v }

/-- A slot setting written (R34): the bounds within the quantity's range `top`. -/
def SlotSetting.put (c : SlotSetting) (top : Nat) (n : Fin 3) (v : Nat) : Option SlotSetting :=
  match n with
  | 0 => (within 0 top v).map fun v => { c with minimum := v }
  | 1 => (within 0 top v).map fun v => { c with maximum := v }
  | 2 => (within 5 900 v).map fun v => { c with staleLimit := v }

def CircuitCfg.put (c : CircuitCfg) (n : Fin 5) (v : Nat) : Option CircuitCfg :=
  match n with
  | 0 => (boolOf v).map fun b => { c with enabled := b }
  | 1 => (within 2 32760 v).map fun v => { c with fullThreshold := v }
  | 2 => (within 1 32759 v).map fun v => { c with reducedThreshold := v }
  | 3 => (within 0 7 v).map fun v => { c with minFilters := v }
  | 4 => (within 10 3600 v).map fun v => { c with starvedLimit := v }

/-- A line field written (R49, R79). A step count is 1 to 32 and never none; that none is BAD_ARG also for a
count that was never written is the model's choice (log entry 17). -/
def LineCfg.put (c : LineCfg) (n : Fin 15) (v : Nat) : Option LineCfg :=
  match n with
  | 0 => (boolOf v).map fun b => { c with enabled := b }
  | 1 => (LineKind.ofCode v).map fun k => { c with kind := k }
  | 2 => (ixFrom 1 6 v).map fun x => { c with circuit := x }
  | 3 => (within 1 8 v).map fun v => { c with injectionPoint := v }
  | 4 => (within 0 60000 v).map fun v => { c with maxRate := v }
  | 5 => (within 0 100 v).map fun v => { c with reducedFraction := v }
  | 6 => (within 0 60000 v).map fun v => { c with blindRate := v }
  | 7 => (within 0 2000 v).map fun v => { c with limit := v }
  | 8 => (within 0 2000 v).map fun v => { c with hysteresis := v }
  | 9 => (within 0 600 v).map fun v => { c with resumeDelay := v }
  | 10 => (within 5 60 v).map fun v => { c with confirmLimit := v }
  | 11 => (optWithin 0 255 v).map fun f => { c with progA := { c.progA with first := f } }
  | 12 => (within 1 32 v).map fun v => { c with progA := { c.progA with count := some v } }
  | 13 => (optWithin 0 255 v).map fun f => { c with progB := { c.progB with first := f } }
  | 14 => (within 1 32 v).map fun v => { c with progB := { c.progB with count := some v } }

def FilterCfg.put (c : FilterCfg) (n : Fin 12) (v : Nat) : Option FilterCfg :=
  match n with
  | 0 => (boolOf v).map fun b => { c with assigned := b }
  | 1 => (ixFrom 1 6 v).map fun x => { c with circuit := x }
  | 2 => (within 0 2000 v).map fun v => { c with dpLimit := v }
  | 3 => (within 1 2000 v).map fun v => { c with dpUrgentLimit := v }
  | 4 => (within 0 2000 v).map fun v => { c with dpHysteresis := v }
  | 5 => (within 0 500 v).map fun v => { c with hoursLimit := v }
  | 6 => (within 0 600 v).map fun v => { c with scourTime := v }
  | 7 => (within 60 900 v).map fun v => { c with washTime := v }
  | 8 => (within 0 300 v).map fun v => { c with settleTime := v }
  | 9 => (within 30 600 v).map fun v => { c with rinseTime := v }
  | 10 => (within 10 180 v).map fun v => { c with travelLimit := v }
  | 11 => (within 60 1800 v).map fun v => { c with checkDelay := v }

/-- A step written (R78): a volume once written cannot be made absent again. -/
def StepRec.put (r : StepRec) (n : Fin 5) (v : Nat) : Option StepRec :=
  match n with
  | 0 => (StepKind.ofCode v).map fun k => { r with kind := k }
  | 1 => (within 0 60000 v).map fun v => { r with rate := v }
  | 2 => (within 1 1440 v).map fun v => { r with duration := v }
  | 3 =>
    if v = noneCode then if r.volume.isNone then some r else none
    else (within 1 65535 v).map fun v => { r with volume := some v }
  | 4 => (boolOf v).map fun b => { r with loop := b }

def TimeEntry.put (e : TimeEntry) (n : Fin 6) (v : Nat) : Option TimeEntry :=
  match n with
  | 0 => (boolOf v).map fun b => { e with enabled := b }
  | 1 => (within 0 127 v).map fun v => { e with days := BitVec.ofNat 7 v }
  | 2 => (within 0 1439 v).map fun v => { e with startMinute := v }
  | 3 => (within 1 1440 v).map fun v => { e with endMinute := v }
  | 4 => (within 0 63 v).map fun v => { e with circuits := BitVec.ofNat 6 v }
  | 5 => (EntryKind.ofCode v).map fun k => { e with kind := k }

/-- The values of the liveness period (R144). -/
def livenessPeriods : List Nat := [2, 5, 10, 15, 20, 30, 60, 120]

def Params.put (p : Params) (n : Fin 8) (v : Nat) : Option Params :=
  match n with
  | 0 => if livenessPeriods.contains v then some { p with livenessPeriod := v } else none
  | 1 => (within 1 4 v).map fun v => { p with recoveryLimit := v }
  | 2 => (within 1 72 v).map fun v => { p with fallbackLimit := v }
  | 3 => (Policy.ofCode v).map fun x => { p with unlisted := x }
  | 4 => (within 0 1000 v).map fun v => { p with supplyStart := v }
  | 5 => (within 0 1000 v).map fun v => { p with supplyStop := v }
  | 6 => (within 0 1000 v).map fun v => { p with sumpStart := v }
  | 7 => (within 0 1000 v).map fun v => { p with sumpStop := v }

/-! ## Relations of a record -/

/-- The relations of a circuit (R22). -/
def CircuitCfg.valid (c : CircuitCfg) : Bool :=
  decide (1 ≤ c.reducedThreshold ∧ c.reducedThreshold < c.fullThreshold ∧ c.fullThreshold ≤ 32760
    ∧ c.minFilters ≤ 7 ∧ 10 ≤ c.starvedLimit ∧ c.starvedLimit ≤ 3600)

/-- A programme range passes its checks (R79). A first step whose count was never written makes no range, and
passes: the model's choice (log entry 9). -/
def Range.valid (r : Range) : Bool :=
  match r.steps with
  | some (f, n) => decide (f + n ≤ 256)
  | none => true

/-- The fields of a line lie in their ranges (R49). -/
def LineCfg.inRange (c : LineCfg) : Bool :=
  decide (1 ≤ c.injectionPoint ∧ c.injectionPoint ≤ 8 ∧ c.maxRate ≤ 60000
    ∧ c.reducedFraction ≤ 100 ∧ c.blindRate ≤ 60000 ∧ c.limit ≤ 2000 ∧ c.hysteresis ≤ 2000
    ∧ c.resumeDelay ≤ 600 ∧ 5 ≤ c.confirmLimit ∧ c.confirmLimit ≤ 60)

/-- The relations of a line (R49): its kind's limit, its ranges. -/
def LineCfg.valid (c : LineCfg) : Bool :=
  c.inRange && c.progA.valid && c.progB.valid &&
    match c.kind with
    | .hypo => decide (c.hysteresis ≤ c.limit)
    | .acid => decide (c.limit + c.hysteresis ≤ 1400)
    | .coag => true

/-- The ranges and relations of a filter (R94). -/
def FilterCfg.valid (c : FilterCfg) : Bool :=
  decide (c.dpLimit ≤ 2000 ∧ c.dpLimit < c.dpUrgentLimit ∧ c.dpUrgentLimit ≤ 2000
    ∧ c.dpHysteresis ≤ c.dpLimit ∧ c.hoursLimit ≤ 500 ∧ c.scourTime ≤ 600
    ∧ 60 ≤ c.washTime ∧ c.washTime ≤ 900 ∧ c.settleTime ≤ 300
    ∧ 30 ≤ c.rinseTime ∧ c.rinseTime ≤ 600 ∧ 10 ≤ c.travelLimit ∧ c.travelLimit ≤ 180
    ∧ 60 ≤ c.checkDelay ∧ c.checkDelay ≤ 1800)

/-- The object is one that R13 lists, with its index in range (R163). -/
def AdmissionEntry.objectOk (e : AdmissionEntry) : Bool :=
  match e.object with
  | .doseLine => decide (1 ≤ e.objectIndex ∧ e.objectIndex ≤ 12)
  | .filterValves => decide (1 ≤ e.objectIndex ∧ e.objectIndex ≤ 8)
  | .circPump => decide (1 ≤ e.objectIndex ∧ e.objectIndex ≤ 6)
  | .backwashPump | .pass | .closed => decide (e.objectIndex = 0)

/-- A key in its range (R13, R36). -/
def keyOk (station channel : Nat) : Bool :=
  decide (1 ≤ station ∧ station ≤ 120 ∧ channel ≤ 7)

/-- The object is unique among enabled entries (R13). -/
def ObjKind.exclusive : ObjKind → Bool
  | .doseLine | .filterValves | .backwashPump => true
  | .circPump | .pass | .closed => false

/-- No other enabled admission entry holds the entry's key, nor its object where it is unique (R13,
R163). -/
def State.admissionUnique (s : State) (k : Fin 48) (e : AdmissionEntry) : Bool :=
  (List.finRange 48).all fun j =>
    let d := s.tables.admission.get j
    j == k || !d.enabled ||
      !((d.station == e.station && d.channel == e.channel)
        || (e.object.exclusive && d.object == e.object && d.objectIndex == e.objectIndex))

/-- No other enabled sample map entry holds the entry's key (R36, R163). -/
def State.mapUnique (s : State) (k : Fin 64) (e : MapEntry) : Bool :=
  (List.finRange 64).all fun j =>
    let d := s.tables.sampleMap.get j
    j == k || !d.enabled || !(d.station == e.station && d.channel == e.channel)

/-- The entry's object names an enabled line or an assigned filter (R163). -/
def State.entryInUse (s : State) (e : AdmissionEntry) : Bool :=
  match e.object with
  | .doseLine => match ixFrom 1 12 e.objectIndex with
    | some i => (s.tables.lines.get i).enabled
    | none => false
  | .filterValves => match ixFrom 1 8 e.objectIndex with
    | some f => (s.tables.filters.get f).assigned
    | none => false
  | .backwashPump | .circPump | .pass | .closed => false

/-- The relations of a step (R78). -/
def StepRec.valid (r : StepRec) : Bool :=
  match r.kind with
  | .rate => true
  | .batch => r.volume.isSome && decide (0 < r.rate)

/-- The relations of a timetable entry (R157). -/
def TimeEntry.valid (e : TimeEntry) : Bool :=
  e.days != 0 && e.circuits != 0 && decide (e.startMinute < e.endMinute)

/-- The relation of a parameter that is written (R104, R139). -/
def Params.valid (p : Params) (recoveryCount : Nat) (n : Fin 8) : Bool :=
  match n with
  | 1 => decide (recoveryCount ≤ p.recoveryLimit)
  | 4 | 5 => decide (p.supplyStop < p.supplyStart)
  | 6 | 7 => decide (p.sumpStart < p.sumpStop)
  | 0 | 2 | 3 => true

/-! ## The checks of a write (R162) -/

/-- The checks of a write in the order of R162, from the value on: range and relation, idleness,
validation. -/
def judgeWrite {α : Type} (new : Option α) (relation idle : α → Bool) (validate : α → Result) :
    Except Result α :=
  match new with
  | none => .error .badArg
  | some r =>
    if relation r = false then .error .badArg
    else if idle r = false then .error .busy
    else match validate r with
      | .done => .ok r
      | e => .error e

/-- A write that passed the checks: one of the value held changes nothing (R162). -/
def finishWrite {α : Type} [DecidableEq α] (s : State) (old : α) (j : Except Result α)
    (commit : α → State) : State × Result :=
  match j with
  | .error e => (s, e)
  | .ok r => (if r = old then s else commit r, .done)

/-- The result of validating a record (R163). -/
def passOr (ok : Bool) (e : Result) : Result := if ok then .done else e

/-! ## Writes, table by table -/

/-- The lines whose pump station is `station` are judged afresh (R61). -/
def State.stationAfresh (s : State) (station : Nat) : State :=
  s.forLines fun t i =>
    match t.lineEntry i with
    | some k => if (t.tables.admission.get k).station = station then t.gateAfresh i else t
    | none => t

/-- A directory entry is written (R8, R61, R106, R164). -/
def State.setDirectory (s : State) (k : Fin 120) (v : Nat) : State × Result :=
  finishWrite s (s.tables.directory.get k)
    (judgeWrite (optIx 4 v) (fun _ => true) (fun _ => s.stationIdle (ixCode k)) fun _ => .done)
    fun r => ((s.updTables fun t => { t with directory := t.directory.set k r }).stationAfresh
      (ixCode k)).arbitrate

/-- The entry names line `i` (R61). -/
def AdmissionEntry.names (e : AdmissionEntry) (i : LineIx) : Bool :=
  e.object == .doseLine && e.objectIndex == i.val + 1

/-- An enabled admission entry keeps an object in use, and a listed object (R163; log entry 17). -/
def State.admissionRelation (s : State) (old : AdmissionEntry) (n : Fin 5) (r : AdmissionEntry) :
    Bool :=
  if old.enabled = false then true
  else if r.enabled = false then !s.entryInUse old
  else match n with
    | 3 | 4 => !s.entryInUse old && r.objectOk
    | 0 | 1 | 2 => true

/-- The validation of an admission entry that is enabled, or whose key or object is written while it is
enabled (R163). -/
def State.admissionValidate (s : State) (k : Fin 48) (old r : AdmissionEntry) : Result :=
  if r.enabled = false then .done
  else if old.enabled = false ∧ (r.objectOk && keyOk r.station r.channel) = false then .badArg
  else passOr (s.admissionUnique k r) .duplicate

/-- An admission entry is written (R13, R61, R106, R163, R164). -/
def State.setAdmission (s : State) (k : Fin 48) (n : Fin 5) (v : Nat) : State × Result :=
  let old := s.tables.admission.get k
  finishWrite s old
    (judgeWrite (old.put n v) (s.admissionRelation old n)
      (fun _ => !old.enabled || s.entryIdle old) (s.admissionValidate k old))
    fun r =>
      let t := s.updTables fun t => { t with admission := t.admission.set k r }
      if old.enabled || r.enabled then
        (t.forLines fun t i => if old.names i || r.names i then t.gateAfresh i else t).arbitrate
      else t

/-- The validation of a sample map entry (R36, R163). -/
def State.mapValidate (s : State) (k : Fin 64) (old r : MapEntry) : Result :=
  if r.enabled = false then .done
  else if old.enabled = false ∧ (keyOk r.station r.channel && decide (r.slot ≤ 21)) = false then
    .badArg
  else passOr (s.mapUnique k r) .duplicate

/-- A sample map entry is written (R36, R163). -/
def State.setMapEntry (s : State) (k : Fin 64) (n : Fin 4) (v : Nat) : State × Result :=
  let old := s.tables.sampleMap.get k
  finishWrite s old
    (judgeWrite (old.put n v) (fun _ => true) (fun _ => true) (s.mapValidate k old))
    fun r => s.updTables fun t => { t with sampleMap := t.sampleMap.set k r }

/-- A slot setting is written (R34). -/
def State.setSlotSetting (s : State) (k : SlotIx) (n : Fin 3) (v : Nat) : State × Result :=
  let old := s.tables.slots.get k
  finishWrite s old
    (judgeWrite (old.put (Config.slotMax k) n v) (fun r => decide (r.minimum ≤ r.maximum))
      (fun _ => true) fun _ => .done)
    fun r => s.updTables fun t => { t with slots := t.slots.set k r }

/-- A circuit, or none, is idle (R164). -/
def State.optIdle (s : State) : Option CircuitIx → Bool
  | some c => s.circuitIdle c
  | none => true

/-- A flow input is assigned (R21, R164). -/
def State.setFlowInput (s : State) (k : InputIx) (v : Nat) : State × Result :=
  let old := s.tables.flowInputs.get k
  finishWrite s old
    (judgeWrite (optIx 6 v) (fun _ => true) (fun r => s.optIdle old && s.optIdle r) fun _ => .done)
    fun r => s.updTables fun t => { t with flowInputs := t.flowInputs.set k r }

/-- The live fields of a circuit that holds no flow, its circulation kept (R23). -/
def Circuit.cleared (x : Circuit) : Circuit :=
  { Circuit.atReset with circulation := x.circulation }

/-- What an accepted write to circuit `k` does (R22, R23, R27, R106). FLOW_CHANGE before the notices of the
blocks that take the report is the model's choice (log entry 6). -/
def State.circuitWritten (s : State) (k : CircuitIx) (old r : CircuitCfg) : State :=
  let t := s.updTables fun t => { t with circuits := t.circuits.set k r }
  let t :=
    if old.enabled = false ∧ r.enabled = true then t.updCircuit k Circuit.cleared
    else if old.enabled = true ∧ r.enabled = false then
      let u := t.updCircuit k Circuit.cleared
      if s.flowClass k = .none then u else (u.flowChange k 0).reportClass k
    else if r.enabled then t.updCircuit k fun x => { x with rising := none }
    else t
  t.arbitrate

/-- A circuit field is written (R22, R23, R163, R164). -/
def State.setCircuit (s : State) (k : CircuitIx) (n : Fin 5) (v : Nat) : State × Result :=
  let old := s.tables.circuits.get k
  finishWrite s old
    (judgeWrite (old.put n v) (fun r => !(old.enabled && r.enabled) || r.valid)
      (fun _ => !old.enabled || s.circuitIdle k)
      fun r => passOr (old.enabled || !r.enabled || r.valid) .badArg)
    (s.circuitWritten k old)

/-- Line `i` becomes enabled (R51): STOPPED, a COMMAND of 0 with its confirm timer, and every cause that
stands. -/
def State.enableLine (s : State) (i : LineIx) : State :=
  let t := s.putLine i { Line.atReset with
    state := .stopped
    confirmation := .awaiting (some (s.tables.lines.get i).confirmLimit) }
  let t := t.originate (t.lineEntry i) 0
  t.applyCauses i (t.standingCauses i)

/-- The confirmation with its timer dropped (R51). -/
def Confirmation.dropTimer : Confirmation → Confirmation
  | .confirmed => .confirmed
  | .awaiting _ => .awaiting none

/-- Line `i` becomes disabled (R51, R85). -/
def State.disableLine (s : State) (i : LineIx) : State :=
  let l := s.gate.get i
  (s.putProg i none).putLine i { l with
    state := .disabled, source := .none, requested := 0, causes := Causes.empty, resume := 0
    fault := none, confirmation := l.confirmation.dropTimer }

/-- What an accepted write to line `k` does (R51, R61, R65). A confirm limit written while the line is AWAITING
leaves the running confirm timer as it was started: R73 does not say, and it is the model's choice (log entry
28). -/
def State.lineWritten (s : State) (k : LineIx) (old r : LineCfg) : State :=
  let t := s.updTables fun t => { t with lines := t.lines.set k r }
  if old.enabled = false ∧ r.enabled = true then t.enableLine k
  else if old.enabled = true ∧ r.enabled = false then t.disableLine k
  else if r.enabled = false then t
  else if old.kind ≠ r.kind ∨ old.circuit ≠ r.circuit then t.gateAfresh k
  else if old.limit ≠ r.limit ∨ old.hysteresis ≠ r.hysteresis then
    t.applyCauses k { (t.gate.get k).causes with
      limit := t.judgeLimit k (t.gate.get k).causes.limit }
  else t

/-- A field that is part of a programme range (R79). -/
def rangeField (n : Fin 15) : Bool := decide (11 ≤ n.val)

/-- A line field is written (R49, R51, R79, R163, R164). -/
def State.setLine (s : State) (k : LineIx) (n : Fin 15) (v : Nat) : State × Result :=
  let old := s.tables.lines.get k
  finishWrite s old
    (judgeWrite (old.put n v)
      (fun r => r.progA.valid && r.progB.valid
        && (!(old.enabled && r.enabled) || (r.valid && (s.lineEntry k).isSome)))
      (fun _ => !old.enabled
        || (s.lineIdle k && (!rangeField n || (s.runner.progs.get k).isNone)))
      fun r => passOr (old.enabled || !r.enabled || (r.valid && (s.lineEntry k).isSome)) .badArg)
    (s.lineWritten k old)

/-- Filter `f` becomes unassigned (R114, R101, R111): UNUSED, with its attempt, fault and unrinsed flag
dropped, its request set emptied and its check cancelled. -/
def State.unassignFilter (s : State) (f : FilterIx) : State :=
  (s.updFilter f fun q => { q with state := .unused, attempt := none, unrinsed := false }).updArb f
    fun a => { a with requests := ⟨false, false, false, false⟩, check := none }

/-- What an accepted write to filter `k` does (R94, R97, R99, R106, R114). -/
def State.filterWritten (s : State) (k : FilterIx) (old r : FilterCfg) : State :=
  let t := s.updTables fun t => { t with filters := t.filters.set k r }
  if old.assigned = false ∧ r.assigned = true then
    (((t.startAttempt k).rejudgeDp k).rejudgeHours k).arbitrate
  else if old.assigned = true ∧ r.assigned = false then (t.unassignFilter k).arbitrate
  else if r.assigned = false then t
  else if old.dpLimit ≠ r.dpLimit ∨ old.dpUrgentLimit ≠ r.dpUrgentLimit
      ∨ old.dpHysteresis ≠ r.dpHysteresis then (t.rejudgeDp k).arbitrate
  else if old.hoursLimit ≠ r.hoursLimit then (t.rejudgeHours k).arbitrate
  else t.arbitrate

/-- A filter field is written (R94, R114, R163, R164). -/
def State.setFilter (s : State) (k : FilterIx) (n : Fin 12) (v : Nat) : State × Result :=
  let old := s.tables.filters.get k
  finishWrite s old
    (judgeWrite (old.put n v)
      (fun r => !(old.assigned && r.assigned) || (r.valid && (s.valveEntry k).isSome))
      (fun _ => !old.assigned || (s.backwashOf k).isNone)
      fun r => passOr (old.assigned || !r.assigned || (r.valid && (s.valveEntry k).isSome)) .badArg)
    (s.filterWritten k old)

/-- A step field is written (R78, R164). -/
def State.setStep (s : State) (k : Fin 256) (n : Fin 5) (v : Nat) : State × Result :=
  let old := s.tables.steps.get k
  finishWrite s old
    (judgeWrite (old.put n v) StepRec.valid (fun _ => !s.stepActive k.val) fun _ => .done)
    fun r => s.updTables fun t => { t with steps := t.steps.set k r }

/-- A timetable field is written: a load of an enabled entry, an enabling and a disabling evaluate the
flags (R157, R159). -/
def State.setTimetable (s : State) (k : Fin 16) (n : Fin 6) (v : Nat) : State × Result :=
  let old := s.tables.timetable.get k
  finishWrite s old
    (judgeWrite (old.put n v) (fun r => !(old.enabled && r.enabled) || r.valid) (fun _ => true)
      fun r => passOr (old.enabled || !r.enabled || r.valid) .badArg)
    fun r =>
      let t := s.updTables fun t => { t with timetable := t.timetable.set k r }
      if old.enabled || r.enabled then t.evaluate else t

/-- A parameter is written (R104, R106, R123, R139, R144, R148). -/
def State.setParam (s : State) (n : Fin 8) (v : Nat) : State × Result :=
  let old := s.tables.params
  finishWrite s old
    (judgeWrite (old.put n v) (fun r => r.valid s.mode.retained.recoveryCount n) (fun _ => true)
      fun _ => .done)
    fun r =>
      let t := s.updTables fun t => { t with params := r }
      match n with
      | 5 | 7 => (t.forFilters State.judgeTanks).arbitrate
      | 4 | 6 => t.arbitrate
      | 0 | 1 | 2 | 3 => t

/-- SET_FIELD of a named field (R162). -/
def State.writeField (s : State) (r : FieldRef) (v : Nat) : State × Result :=
  match r with
  | .directory k => s.setDirectory k v
  | .admission k n => s.setAdmission k n v
  | .mapEntry k n => s.setMapEntry k n v
  | .slotSetting k n => s.setSlotSetting k n v
  | .flowInput k => s.setFlowInput k v
  | .circuit k n => s.setCircuit k n v
  | .line k n => s.setLine k n v
  | .filter k n => s.setFilter k n v
  | .step k n => s.setStep k n v
  | .timetable k n => s.setTimetable k n v
  | .param n => s.setParam n v

end Sys2Proof.Machine
end

