-- ==== Sys2Proof/Machine/StateItems.lean ====
section
/-!
DEFINITION. The items of GET_STATE (R165 and the rules it names), as bytes (10 section 10.7). Each object
kind has a fixed list of items; an item that is not present is all ones. The layout is log entry 12.
-/

namespace Sys2Proof.Machine

/-! ## Bytes -/

/-- A number in `w` bytes, all ones where it is none or absent. -/
def optBytes (w : Nat) : Option Nat → List Byte
  | some v => bytesOf w v
  | none => List.replicate w 0xFF

/-- A yes or no in one byte (log entry 11). -/
def boolBytes (b : Bool) : List Byte := bytesOf 1 (boolCode b)

/-- A set as a mask, the lowest bit for the first member (10 section 10.7). -/
def maskOf : List Bool → Nat
  | [] => 0
  | b :: bs => boolCode b + 2 * maskOf bs

/-- Whole items in order while they fit `room` bytes (R165, 10 section 10.7). -/
def fitItems : Nat → List (List Byte) → List Byte
  | _, [] => []
  | room, x :: xs => if x.length ≤ room then x ++ fitItems (room - x.length) xs else []

/-! ## Codes of live enumerations -/

def SegState.code : SegState → Nat
  | .up => 0 | .lost => 1 | .isolated => 2 | .recovering => 3 | .forced => 4

def FlowClass.code : FlowClass → Nat
  | .full => 0 | .reduced => 1 | .low => 2 | .none => 3

def Circulation.code : Circulation → Nat
  | .run => 0 | .stopped => 1

def LineState.code : LineState → Nat
  | .disabled => 0 | .stopped => 1 | .dosing => 2 | .inhibited => 3 | .resuming => 4 | .faulted => 5

def Source.code : Source → Nat
  | .none => 0 | .supervisor => 1 | .programme => 2

def SlotState.code : SlotState → Nat
  | .absent => 0 | .valid => 1 | .stale => 2 | .faulty _ => 3

/-- The code of SUBSTITUTE, the fifth state of R33. -/
def substituteCode : Nat := 4

def Which.code : Which → Nat
  | .a => 1 | .b => 2 | .shockA => 3 | .shockB => 4

def StartCause.code : StartCause → Nat
  | .powerOn => 0 | .resetPin => 1 | .restartRequest => 2 | .commit => 3

def MoveObject.code : MoveObject → Nat
  | .valves => 0 | .pump => 1

/-- The causes of a line in the order of R50's groups. -/
def Causes.list (c : Causes) : List Bool :=
  [c.flow, c.limit, c.backwash, c.unreachable, c.circStop, c.plantStop, c.hold, c.lockout]

/-! ## The items -/

/-- The items of a segment (R165); the seconds that remain of its timer are the whole seconds held (log
entry 4). -/
def State.segmentItems (s : State) (g : SegIx) : List (List Byte) :=
  let x := s.ports.segments.get g
  [bytesOf 1 x.state.code, optBytes 1 x.timer, bytesOf 1 x.forwarded.length,
    bytesOf 1 x.own.length]

def State.flowInputItems (s : State) (i : InputIx) : List (List Byte) :=
  let x := s.flow.inputs.get i
  [optBytes 1 ((s.tables.flowInputs.get i).map ixCode), bytesOf 2 x.lastCount,
    boolBytes x.overrange]

def State.circuitItems (s : State) (c : CircuitIx) : List (List Byte) :=
  let x := s.flow.circuits.get c
  [bytesOf 2 x.flowSum, bytesOf 1 x.measured.code, bytesOf 1 x.flowClass.code,
    boolBytes x.rising.isSome, optBytes 1 (x.rising.map FlowClass.code),
    bytesOf 1 x.circulation.code, bytesOf 4 x.starvedTimer, boolBytes x.starvedReported,
    bytesOf 1 (s.inServiceCount c)]

/-- The fault cause of a FAULTY slot (R33). -/
def SlotState.faultCause : SlotState → Option Nat
  | .faulty c => some c.cause.code
  | .absent | .valid | .stale => none

/-- The four fields that samples give (R48). -/
def Reading.items (r : Reading) : List (List Byte) :=
  [bytesOf 1 r.state.code, optBytes 2 (r.held.map Held.value), optBytes 2 (r.held.map Held.age),
    optBytes 1 r.state.faultCause]

/-- Four fields that are not present. -/
def noReading : List (List Byte) := [optBytes 1 none, optBytes 2 none, optBytes 2 none, optBytes 1 none]

def Slot.items (x : Slot) : List (List Byte) :=
  match x.sub with
  | none => x.base.items ++ [optBytes 2 none, optBytes 2 none] ++ noReading
  | some u => bytesOf 1 substituteCode :: noReading.tail
      ++ [bytesOf 2 u.value, bytesOf 2 u.remaining] ++ x.base.items

/-- The confirmation with its timer (R50). -/
def Confirmation.bytes : Confirmation → List Byte
  | .confirmed => bytesOf 1 0 ++ optBytes 1 none
  | .awaiting t => bytesOf 1 1 ++ optBytes 1 t

def State.lineItems (s : State) (i : LineIx) : List (List Byte) :=
  let l := s.gate.get i
  let dosing := l.state == .dosing
  [bytesOf 1 l.state.code, bytesOf 1 l.source.code, bytesOf 2 l.requested, bytesOf 2 l.admitted,
    bytesOf 2 l.confirmed, l.confirmation.bytes, optBytes 2 l.lastEcho,
    bytesOf 1 (maskOf l.causes.list),
    optBytes 2 (if l.state = .resuming then some l.resume else none),
    optBytes 1 (l.fault.map fun f => f.cause.code),
    optBytes 1 (if dosing then some l.binding.cause.code else none),
    optBytes 1 (if dosing then some (boolCode (s.pins.permits.get i)) else none)]

/-- The batch delivered (R80). -/
def batchBytes : Option Batch → List Byte
  | some b => bytesOf 2 b.ml ++ bytesOf 2 b.fraction
  | none => optBytes 4 none

def State.programmeItems (s : State) (i : LineIx) : List (List Byte) :=
  let p := s.runner.progs.get i
  [bytesOf 1 ((p.map fun p => p.which.code).getD 0), optBytes 1 (p.map Prog.position),
    optBytes 4 (p.map Prog.remaining), batchBytes (p.bind Prog.batch),
    boolBytes ((p.map Prog.paused).getD false),
    optBytes 1 (p.map fun p => s.stepIndex i p.which p.position),
    bytesOf 4 (s.runner.totals.get i).ml.toNat, boolBytes (s.runner.latches.get i).isSome]

def FilterState.code : FilterState → Nat
  | .unused => 0 | .inService => 1 | .backwash _ => 2 | .faulted _ => 3

/-- The step of a backwash (R113, R134): move or dwell, then object, awaited value, seconds. -/
def BwStep.bytes : BwStep → List Byte
  | .move o awaited remaining =>
    bytesOf 1 0 ++ bytesOf 1 o.code ++ bytesOf 1 awaited ++ bytesOf 2 remaining
  | .dwell remaining => bytesOf 1 1 ++ optBytes 2 none ++ bytesOf 2 remaining

/-- The fields of R113 that are present in BACKWASH only (R134). -/
def backwashItems : Option Backwash → List (List Byte)
  | none => [optBytes 1 none, optBytes 1 none, optBytes 5 none, optBytes 1 none, optBytes 1 none,
      optBytes 1 none, optBytes 1 none, optBytes 2 none]
  | some b => [bytesOf 1 (b.stage.number - 1), bytesOf 1 b.stage.number, b.step.bytes,
      optBytes 1 (b.abort.map fun a => a.1.cause.code), optBytes 1 (b.abort.map fun a => a.2.number),
      boolBytes b.wetted, boolBytes b.rinsed, bytesOf 2 b.elapsed]

/-- The fault reason of a FAULTED filter (R113). -/
def FilterState.faultCode : FilterState → Option Nat
  | .faulted r => some r.cause.code
  | .unused | .inService | .backwash _ => none

def State.filterItems (s : State) (f : FilterIx) : List (List Byte) :=
  let a := s.arbiter.filters.get f
  let q := s.seq.filters.get f
  let h := s.mode.retained.runHours.get f
  [bytesOf 1 (maskOf [a.requests.dp, a.requests.dpUrgent, a.requests.hours, a.requests.manual]),
    boolBytes a.masked, bytesOf 1 a.rank, optBytes 2 a.holdOff,
    bytesOf 2 h.hours ++ bytesOf 2 h.seconds, optBytes 2 a.check, bytesOf 1 a.ineffective,
    boolBytes a.dpIgnored, boolBytes (s.eligible f), optBytes 1 (s.firstFailed f),
    bytesOf 1 q.state.code]
    ++ backwashItems q.state.backwash?
    ++ [optBytes 1 q.attempt, optBytes 1 q.state.faultCode, boolBytes q.unrinsed,
      optBytes 2 q.lastEcho]

def State.arbiterItems (s : State) : List (List Byte) :=
  [boolBytes s.arbiter.busy.isSome, optBytes 1 (s.arbiter.busy.map ixCode),
    (List.finRange 8).flatMap fun f => bytesOf 1 (s.arbiter.filters.get f).rank]

def State.sequencerItems (s : State) : List (List Byte) :=
  let r := s.seq.restore
  [boolBytes s.seq.pumpRun, optBytes 2 s.seq.lastPumpEcho, boolBytes s.pins.pb,
    boolBytes (!r.running), optBytes 1 (if r.running then some r.remaining else none),
    optBytes 1 (if r.running then some s.unsettled else none)]

def ModeState.liveness? : ModeState → Option Liveness
  | .supervised l => some l
  | .startup | .commission | .hold | .fallback _ | .lockout => none

def ModeState.fallback? : ModeState → Option Fallback
  | .fallback f => some f
  | .startup | .commission | .hold | .supervised _ | .lockout => none

def State.modeItems (s : State) : List (List Byte) :=
  let m := s.mode
  let l := m.state.liveness?
  let f := m.state.fallback?
  [bytesOf 1 s.modeNow.number, optBytes 1 (l.map Liveness.period), optBytes 1 (l.map Liveness.elapsed),
    optBytes 1 (l.map fun l => boolCode l.late), optBytes 4 (f.map Fallback.timer),
    optBytes 1 (f.map Fallback.limitHours), optBytes 1 (f.map Fallback.returnCount),
    optBytes 1 (f.bind Fallback.returnTimer), boolBytes m.restart.isSome,
    bytesOf 1 s.tables.params.recoveryLimit, boolBytes m.retained.commissioned,
    boolBytes m.retained.lockoutFlag, optBytes 1 (m.retained.lockoutCause.map fun c => c.cause.code),
    bytesOf 1 m.retained.recoveryCount, bytesOf 1 m.retained.startCause.code]

/-- The index of the entry that covers, returned with a valid clock only (R160). -/
def State.coverCode (s : State) (k : EntryKind) (c : CircuitIx) : Option Nat :=
  if s.clock.valid then (s.covering k c).map Fin.val else none

def State.clockItems (s : State) : List (List Byte) :=
  let k := s.clock
  [bytesOf 1 k.day, bytesOf 2 k.minute, bytesOf 1 k.second, boolBytes k.valid]
    ++ (List.finRange 6).map fun c =>
      boolBytes (k.openFlags.get c) ++ boolBytes (k.washFlags.get c)
        ++ optBytes 1 (s.coverCode .openHours c) ++ optBytes 1 (s.coverCode .washWindow c)

/-- The items of an object by its kind code and index (R165); none where the kind or the index is
unknown. -/
def State.stateItems (s : State) (kind index : Nat) : Option (List (List Byte)) :=
  match kind with
  | 2 => (ixFrom 1 4 index).map s.segmentItems
  | 5 => (ixFrom 1 12 index).map s.lineItems
  | 6 => (ixFrom 1 6 index).map s.circuitItems
  | 7 => (ixFrom 1 8 index).map s.flowInputItems
  | 8 => (ixFrom 0 22 index).map fun k => (s.slots.get k).items
  | 9 => (ixFrom 1 8 index).map s.filterItems
  | 10 => if index = 0 then some s.modeItems else none
  | 11 => (ixFrom 1 12 index).map s.programmeItems
  | 12 => if index = 0 then some s.arbiterItems else none
  | 13 => if index = 0 then some s.sequencerItems else none
  | 14 => if index = 0 then some s.clockItems else none
  | _ => none

/-- The data of GET_STATE (R165): item 0 is the first items that fit nine bytes; none is BAD_ARG. -/
def itemData (items : List (List Byte)) (item : Nat) : Option (List Byte) :=
  if item = 0 then some (fitItems 9 items) else items[item - 1]?

end Sys2Proof.Machine
end

