-- ==== Sys2Proof/Machine/Manage.lean ====
section
/-!
DEFINITION. How a management request is taken and answered (R17, R153, R161), and the shared bodies of
requests.
-/

namespace Sys2Proof.Machine

/-- What the body of a request gives: the state, and its answer, or none where the response comes later
(R17, R166). -/
structure Reply where
  state : State
  answer : Option (Result × List Byte)
  deriving DecidableEq, Repr

/-- An answer with no data. -/
def State.reply (s : State) (r : Result) : Reply := ⟨s, some (r, [])⟩

/-- DONE with data. -/
def State.replyData (s : State) (data : List Byte) : Reply := ⟨s, some (.done, data)⟩

/-- A request is answered (R161). -/
def State.answer (s : State) (r : Request) (tag : Byte) (result : Result) (data : List Byte) : State :=
  s.respond ⟨r.byte, tag, result, data⟩

/-- The reply of a request's body is carried to the response queue (R17). -/
def Reply.finish (x : Reply) (r : Request) (tag : Byte) : State :=
  match x.answer with
  | some a => x.state.answer r tag a.1 a.2
  | none => x.state

/-- A request is taken (R161): a response place (R17), the mode (R153), no restart pending (R143), the
arguments, then its own checks and effect. -/
def State.manage {α : Type} (s : State) (r : Request) (tag : Byte) (modeOk : Bool) (args : Option α)
    (body : α → Reply) : State :=
  if Config.responsePlaces ≤ s.placesTaken then s.dropRequest
  else if modeOk = false then s.answer r tag .badMode []
  else if s.mode.restart.isSome then s.answer r tag .busy []
  else match args with
    | none => s.answer r tag .badArg []
    | some a => (body a).finish r tag

/-! ## The modes of R153 -/

/-- Every mode: the reads. -/
def Mode.reads (_ : Mode) : Bool := true
/-- SUPERVISED or FALLBACK: REFRESH, ENTER_HOLD. -/
def Mode.alive : Mode → Bool
  | .supervised | .fallback => true
  | .startup | .commission | .hold | .lockout => false
/-- Every mode but STARTUP: RESTART, SET_CLOCK. -/
def Mode.started : Mode → Bool
  | .startup => false
  | .commission | .hold | .supervised | .fallback | .lockout => true
/-- Every mode but STARTUP and LOCKOUT: LOCK. -/
def Mode.lockable : Mode → Bool
  | .startup | .lockout => false
  | .commission | .hold | .supervised | .fallback => true
/-- COMMISSION, HOLD, SUPERVISED: loads and service requests. -/
def Mode.loads : Mode → Bool
  | .commission | .hold | .supervised => true
  | .startup | .fallback | .lockout => false

/-! ## Arguments (10 section 10.7) -/

/-- No arguments. -/
def noArgs : List Byte → Option Unit
  | [] => some ()
  | _ => none

/-- One argument of one byte that numbers one of `n` objects from `lo`. -/
def ixArg (lo n : Nat) : List Byte → Option (Fin n)
  | [b] => ixFrom lo n b.toNat
  | _ => none

/-! ## Shared bodies -/

/-- The line status byte of READ_SNAPSHOT and its numbers (10 section 10.7). The two lowest bits of the status
byte, of which the section does not speak, are 0: the model's choice (log entry 12). -/
def Latch.bytes (l : Latch) (latched : Bool) : List Byte :=
  bytesOf 1 (l.state.code * 32 + l.source.code * 8 + boolCode latched * 4)
    ++ bytesOf 2 l.admitted ++ bytesOf 2 l.confirmed ++ bytesOf 4 l.total.toNat

/-- The fields of a latch as line `i` stands (R92, R93). -/
def State.liveLatch (s : State) (i : LineIx) : Latch :=
  let l := s.gate.get i
  ⟨(s.runner.totals.get i).ml, l.state, l.admitted, l.confirmed, l.source⟩

/-- The write of the settings store begins (R166): the store is marked invalid and the tables are copied. -/
def State.beginWrite (s : State) (commit : Bool) (tag : Byte) : State :=
  { s with mgmt := { s.mgmt with
    store := ⟨false, s.tables⟩
    write := some ⟨commit, tag, Config.writeSeconds⟩ } }

/-- STORE_SETTINGS and COMMIT_COMMISSIONING (R142, R166): BUSY while a write is in flight, else the write
begins and its response comes at its end. -/
def State.storeBody (s : State) (commit : Bool) (tag : Byte) : Reply :=
  if s.mgmt.write.isSome then s.reply .busy else ⟨s.beginWrite commit tag, none⟩

/-- CLEAR_FAULT(line) (R76). -/
def State.clearLine (s : State) (i : LineIx) : Reply :=
  let l := s.gate.get i
  if l.state = .faulted then
    let t := s.putLine i { l with
      fault := none, requested := 0, admitted := 0, source := .none
      state := if l.causes.any then .inhibited else .stopped
      confirmation := .awaiting (some (s.tables.lines.get i).confirmLimit) }
    (t.originate (t.lineEntry i) 0).reply .done
  else s.reply .noEntry

/-- The filter is FAULTED (R113). -/
def FilterState.isFaulted : FilterState → Bool
  | .faulted _ => true
  | .unused | .inService | .backwash _ => false

/-- The DP ignored flag and the ineffective count of filter `f` are cleared, and the end of the
suppression is judged (R98, R112). -/
def State.clearIgnored (s : State) (f : FilterIx) : State :=
  let t := s.updArb f fun a => { a with ineffective := 0, dpIgnored := false }
  if (s.arbiter.filters.get f).dpIgnored then t.rejudgeDp f else t

/-- CLEAR_FAULT(filter) (R112, R131). -/
def State.clearFilter (s : State) (f : FilterIx) : Reply :=
  if (s.seq.filters.get f).state.isFaulted then
    (((s.clearIgnored f).startAttempt f).arbitrate).reply .done
  else if (s.arbiter.filters.get f).dpIgnored then ((s.clearIgnored f).arbitrate).reply .done
  else s.reply .noEntry

/-- The object of a CLEAR_FAULT: a line or a filter. -/
inductive FaultObject where
  | line (i : LineIx)
  | filter (f : FilterIx)
  deriving DecidableEq, Repr

/-- The arguments of CLEAR_FAULT: an object kind byte, LINE or FILTER, before its index (10 section
10.7). -/
def faultArgs : List Byte → Option FaultObject
  | [k, x] =>
    if k = 5 then (ixFrom 1 12 x.toNat).map .line
    else if k = 9 then (ixFrom 1 8 x.toNat).map .filter
    else none
  | _ => none

/-- CLEAR_FAULT, one request code for lines and filters (R76, R112; log entry 18). -/
def State.clearFault (s : State) (tag : Byte) (args : List Byte) : State :=
  s.manage .clearFault tag s.modeNow.loads (faultArgs args) fun
    | .line i => s.clearLine i
    | .filter f => s.clearFilter f

end Sys2Proof.Machine
end

