-- ==== Sys2Proof/Machine/ModeRequests.lean ====
section
/-!
DEFINITION. The requests of the Mode Controller and of the clock (R139, R140, R142, R143, R145, R147, R149,
R151, R156).
-/

namespace Sys2Proof.Machine

/-- A REFRESH in SUPERVISED (R145): EARLY in the first half of a period with the late flag clear, else
valid. -/
def State.refreshSupervised (s : State) (l : Liveness) : Reply :=
  if l.late = false ∧ 2 * l.elapsed < l.period then (s.enterFallback .early).reply .denied
  else
    ({ s with mode := { s.mode with
      state := .supervised { l with elapsed := 0, late := false } } } : State).reply .done

/-- A REFRESH in FALLBACK (R147): the return count rises, and at 3 the part returns to SUPERVISED. -/
def State.refreshFallback (s : State) (f : Fallback) : Reply :=
  let n := f.returnCount + 1
  if 3 ≤ n then (s.changeMode (.supervised s.freshLiveness) .returned).replyData (bytesOf 1 n)
  else
    ({ s with mode := { s.mode with
      state := .fallback { f with returnCount := n, returnTimer := some f.period } } } :
      State).replyData (bytesOf 1 n)

/-- REFRESH (R145, R147). -/
def execRefresh (tag : Byte) (args : List Byte) (s : State) : Host.Outcome State Fault Refusal :=
  .next (s.manage .refresh tag s.modeNow.alive (noArgs args) fun _ =>
    match s.mode.state with
    | .supervised l => s.refreshSupervised l
    | .fallback f => s.refreshFallback f
    | .startup | .commission | .hold | .lockout => s.reply .badMode)

/-- ENTER_SUPERVISED (R140): from HOLD, with a fresh liveness. -/
def execEnterSupervised (tag : Byte) (args : List Byte) (s : State) :
    Host.Outcome State Fault Refusal :=
  .next (s.manage .enterSupervised tag (s.modeNow == .hold) (noArgs args) fun _ =>
    (s.changeMode (.supervised s.freshLiveness) .request).reply .done)

/-- ENTER_HOLD (R140): from SUPERVISED or FALLBACK. -/
def execEnterHold (tag : Byte) (args : List Byte) (s : State) : Host.Outcome State Fault Refusal :=
  .next (s.manage .enterHold tag s.modeNow.alive (noArgs args) fun _ =>
    (s.changeMode .hold .request).reply .done)

/-- LOCK (R149): LOCKOUT with cause REQUESTED. -/
def execLock (tag : Byte) (args : List Byte) (s : State) : Host.Outcome State Fault Refusal :=
  .next (s.manage .lock tag s.modeNow.lockable (noArgs args) fun _ =>
    (s.enterLockout .requested .requested).reply .done)

/-- RELEASE with the keyswitch on (R151): flag and output cleared, recovery count 0, mode HOLD; the lockout
cause is kept. -/
def State.releaseLockout (s : State) : State :=
  let t := s.updRetained fun r => { r with lockoutFlag := false, recoveryCount := 0 }
  let t : State := { t with pins := { t.pins with lockout := false } }
  t.changeMode .hold .released

/-- RELEASE (R151). -/
def execRelease (tag : Byte) (args : List Byte) (s : State) : Host.Outcome State Fault Refusal :=
  .next (s.manage .release tag (s.modeNow == .lockout) (noArgs args) fun _ =>
    if s.pins.keyswitch then s.releaseLockout.reply .done else s.reply .denied)

/-- COMMIT_COMMISSIONING (R142): the write begins; its end commissions the part. -/
def execCommitCommissioning (tag : Byte) (args : List Byte) (s : State) :
    Host.Outcome State Fault Refusal :=
  .next (s.manage .commitCommissioning tag (s.modeNow == .commission) (noArgs args) fun _ =>
    s.storeBody true tag)

/-- RESTART (R143): BUSY while a write is in flight, else a restart becomes pending. -/
def execRestart (tag : Byte) (args : List Byte) (s : State) : Host.Outcome State Fault Refusal :=
  .next (s.manage .restart tag s.modeNow.started (noArgs args) fun _ =>
    if s.mgmt.write.isSome then s.reply .busy
    else ({ s with mode := { s.mode with restart := some .restartRequest } } : State).reply .done)

/-- CLEAR_RECOVERY_COUNT (R139): in SUPERVISED the count becomes 0. -/
def execClearRecoveryCount (tag : Byte) (args : List Byte) (s : State) :
    Host.Outcome State Fault Refusal :=
  .next (s.manage .clearRecoveryCount tag (s.modeNow == .supervised) (noArgs args) fun _ =>
    (s.updRetained fun r => { r with recoveryCount := 0 }).reply .done)

/-- The arguments of SET_CLOCK in their ranges (R156): day, minute, second. -/
def clockArgs : List Byte → Option (Nat × Nat × Nat)
  | [d, m1, m0, sec] =>
    let m := numOf [m1, m0]
    if d.toNat ≤ 6 ∧ m ≤ 1439 ∧ sec.toNat ≤ 59 then some (d.toNat, m, sec.toNat) else none
  | _ => none

/-- SET_CLOCK (R156): the time, the valid flag, one evaluation. -/
def execSetClock (tag : Byte) (args : List Byte) (s : State) : Host.Outcome State Fault Refusal :=
  .next (s.manage .setClock tag s.modeNow.started (clockArgs args) fun a =>
    (s.updClock fun c =>
      { c with day := a.1, minute := a.2.1, second := a.2.2, valid := true }).evaluate.reply .done)

end Sys2Proof.Machine
end

