-- ==== Sys2Proof/Machine/PlantRequests.lean ====
section
/-!
DEFINITION. The requests of the plant blocks: substitutes, programmes, snapshots, backwashes, faults and
segments (R5, R42, R45, R76, R89, R90, R92, R93, R100-R102, R110, R112).
-/

namespace Sys2Proof.Machine

/-! ## Substitutes (R42, R45) -/

/-- The arguments of SET_SUBSTITUTE that pass the checks of R42: slot, value, minutes. -/
def State.substituteArgs (s : State) : List Byte → Option (SlotIx × Nat × Nat)
  | [k, v1, v0, m] =>
    let v := numOf [v1, v0]
    match ixFrom 0 22 k.toNat with
    | some k =>
      let c := s.tables.slots.get k
      if k.val ≤ 11 ∧ c.minimum ≤ v ∧ v ≤ c.maximum ∧ 1 ≤ m.toNat ∧ m.toNat ≤ 240 then
        some (k, v, m.toNat)
      else none
    | none => none
  | _ => none

/-- A substitute stands on slot `k`; what the samples give is kept beneath it (R42, R35). -/
def State.putSubstitute (s : State) (k : SlotIx) (value minutes : Nat) : State :=
  let x := s.slots.get k
  (s.putSlot k { x with sub := some ⟨value, minutes * 60⟩ }).reportSlot k x.effective

/-- SET_SUBSTITUTE (R42). -/
def execSetSubstitute (tag : Byte) (args : List Byte) (s : State) : Host.Outcome State Fault Refusal :=
  .next (s.manage .setSubstitute tag (s.modeNow == .supervised) (s.substituteArgs args) fun a =>
    (s.putSubstitute a.1 a.2.1 a.2.2).reply .done)

/-- A FREE_CL or PH slot (R45). -/
def substituteSlot (args : List Byte) : Option SlotIx :=
  match ixArg 0 22 args with
  | some k => if k.val ≤ 11 then some k else none
  | none => none

/-- CLEAR_SUBSTITUTE (R45). -/
def execClearSubstitute (tag : Byte) (args : List Byte) (s : State) :
    Host.Outcome State Fault Refusal :=
  .next (s.manage .clearSubstitute tag (s.modeNow == .supervised) (substituteSlot args) fun k =>
    match (s.slots.get k).sub with
    | none => s.reply .noEntry
    | some _ => (s.endSubstitute k .cleared).reply .done)

/-! ## Programmes (R89, R90) -/

/-- The arguments of START_PROGRAMME: an enabled line and the choice A 0 or B 1 (R89). -/
def State.programmeArgs (s : State) : List Byte → Option (LineIx × Which)
  | [x, p] =>
    match ixFrom 1 12 x.toNat with
    | some i =>
      if (s.tables.lines.get i).enabled = false then none
      else if p = 0 then some (i, .shockA)
      else if p = 1 then some (i, .shockB)
      else none
    | none => none
  | _ => none

/-- A shock programme is active on line `i` (R89). -/
def State.shockActive (s : State) (i : LineIx) : Bool :=
  match s.runner.progs.get i with
  | some p => p.which.isShock
  | none => false

/-- The data of START_PROGRAMME with DONE: PASS 0, CLAMP 1 with the binding term, HELD 2 (10 section
10.7). -/
def Submitted.bytes : Submitted → List Byte
  | .pass => bytesOf 1 0
  | .clamp t _ => bytesOf 1 1 ++ bytesOf 1 t.cause.code
  | .held => bytesOf 1 2
  | .refuse c => bytesOf 1 c.code

/-- The body of START_PROGRAMME (R89): a refused submission leaves the part unchanged. -/
def State.startProgramme (s : State) (i : LineIx) (w : Which) : Reply :=
  if (((s.tables.lines.get i).range w).steps).isNone then s.reply .noEntry
  else if s.shockActive i then s.reply .busy
  else
    let o := s.beginStep i w 0
    match o.2 with
    | .refuse c => ⟨s, some (.denied, bytesOf 1 c.code)⟩
    | .pass | .held | .clamp _ _ => o.1.replyData o.2.bytes

/-- START_PROGRAMME (R89). -/
def execStartProgramme (tag : Byte) (args : List Byte) (s : State) :
    Host.Outcome State Fault Refusal :=
  .next (s.manage .startProgramme tag (s.modeNow == .supervised) (s.programmeArgs args) fun a =>
    s.startProgramme a.1 a.2)

/-- STOP_PROGRAMME (R90): the programme stops with no notice and its line is released. -/
def execStopProgramme (tag : Byte) (args : List Byte) (s : State) : Host.Outcome State Fault Refusal :=
  .next (s.manage .stopProgramme tag (s.modeNow == .supervised) (ixArg 1 12 args) fun i =>
    match s.runner.progs.get i with
    | none => s.reply .noEntry
    | some _ => ((s.putProg i none).release i).reply .done)

/-! ## Snapshots (R92, R93) -/

/-- The set of lines of a SNAPSHOT: two bytes, not empty, no bit above D12 (R92). -/
def snapshotArgs : List Byte → Option (BitVec 12)
  | [h, l] =>
    let v := numOf [h, l]
    if 0 < v ∧ v < 4096 then some (BitVec.ofNat 12 v) else none
  | _ => none

/-- The latch of line `i` after a SNAPSHOT that lists it or not: an unread latch is kept (R92). -/
def State.latchOf (s : State) (lines : BitVec 12) (i : LineIx) (l : Option Latch) : Option Latch :=
  if lines.getLsbD i.val && l.isNone then some (s.liveLatch i) else l

/-- Every listed line with no unread latch is latched (R92). -/
def State.latch (s : State) (lines : BitVec 12) : State :=
  { s with runner := { s.runner with latches := s.runner.latches.mapIdx (s.latchOf lines) } }

/-- SNAPSHOT (R92): the lines latched by it, then the lines that kept an earlier latch. -/
def execSnapshot (tag : Byte) (args : List Byte) (s : State) : Host.Outcome State Fault Refusal :=
  .next (s.manage .snapshot tag s.modeNow.reads (snapshotArgs args) fun lines =>
    let kept := (List.finRange 12).map fun i => lines.getLsbD i.val && (s.runner.latches.get i).isSome
    let taken := (List.finRange 12).map fun i => lines.getLsbD i.val && (s.runner.latches.get i).isNone
    (s.latch lines).replyData (bytesOf 2 (maskOf taken) ++ bytesOf 2 (maskOf kept)))

/-- The arguments of READ_SNAPSHOT: a line, and clear yes or no (R93). -/
def readSnapshotArgs : List Byte → Option (LineIx × Bool)
  | [x, c] => both Prod.mk (ixFrom 1 12 x.toNat) (boolOf c.toNat)
  | _ => none

/-- The request asks for a clear (R93, R153). Arguments that are not two bytes, and a clear byte other than 1,
ask for none, so that a malformed request is tested as a read and answered BAD_ARG: the model's choice (log
entry 27). -/
def asksClear : List Byte → Bool
  | [_, c] => c == 1
  | _ => false

/-- The latch of line `i` is released and, with clear, its totaliser zeroed (R93). -/
def State.readLatch (s : State) (i : LineIx) (clear : Bool) : State :=
  { s with runner := { s.runner with
    latches := s.runner.latches.set i none
    totals := if clear then s.runner.totals.set i ⟨0, 0⟩ else s.runner.totals } }

/-- READ_SNAPSHOT (R93): the latched fields, or the live ones. -/
def execReadSnapshot (tag : Byte) (args : List Byte) (s : State) : Host.Outcome State Fault Refusal :=
  .next (s.manage .readSnapshot tag (!asksClear args || s.modeNow.loads) (readSnapshotArgs args) fun a =>
    (s.readLatch a.1 a.2).replyData (match s.runner.latches.get a.1 with
      | some l => l.bytes true
      | none => (s.liveLatch a.1).bytes false))

/-! ## Backwashes (R100-R102, R110) -/

/-- The argument of BACKWASH_NOW: an assigned filter (R100). -/
def State.assignedArg (s : State) (args : List Byte) : Option FilterIx :=
  match ixArg 1 8 args with
  | some f => if (s.tables.filters.get f).assigned then some f else none
  | none => none

/-- BACKWASH_NOW (R100): MANUAL, and a grant if it makes the filter eligible. -/
def execBackwashNow (tag : Byte) (args : List Byte) (s : State) : Host.Outcome State Fault Refusal :=
  .next (s.manage .backwashNow tag s.modeNow.loads (s.assignedArg args) fun f =>
    if (s.seq.filters.get f).state.isFaulted then s.reply .denied
    else if (s.backwashOf f).isSome then s.reply .busy
    else ((s.updArb f fun a =>
      { a with requests := { a.requests with manual := true } }).arbitrate).reply .done)

/-- ABORT_BACKWASH (R101, R126). -/
def execAbortBackwash (tag : Byte) (args : List Byte) (s : State) : Host.Outcome State Fault Refusal :=
  .next (s.manage .abortBackwash tag s.modeNow.loads (ixArg 1 8 args) fun f =>
    if (s.backwashOf f).isSome then (s.abort f .supervisorAbort).reply .done
    else if (s.arbiter.filters.get f).requests.manual then
      ((s.dropManual f).arbitrate).reply .done
    else s.reply .noEntry)

/-- The mask of filter `f` (R102). -/
def State.putMask (s : State) (f : FilterIx) (on : Bool) : State :=
  (s.updArb f fun a => { a with masked := on }).arbitrate

/-- MASK_FILTER (R102). -/
def execMaskFilter (tag : Byte) (args : List Byte) (s : State) : Host.Outcome State Fault Refusal :=
  .next (s.manage .maskFilter tag s.modeNow.loads (ixArg 1 8 args) fun f =>
    (s.putMask f true).reply .done)

/-- UNMASK_FILTER (R102). -/
def execUnmaskFilter (tag : Byte) (args : List Byte) (s : State) : Host.Outcome State Fault Refusal :=
  .next (s.manage .unmaskFilter tag s.modeNow.loads (ixArg 1 8 args) fun f =>
    (s.putMask f false).reply .done)

/-- SET_LOWEST (R110): the rotation of R109, with no selection. -/
def execSetLowest (tag : Byte) (args : List Byte) (s : State) : Host.Outcome State Fault Refusal :=
  .next (s.manage .setLowest tag s.modeNow.loads (ixArg 1 8 args) fun f => (s.rotate f).reply .done)

/-! ## Faults (R76, R112) -/

/-- CLEAR_FAULT for a line (R76). -/
def execClearFaultLine (tag : Byte) (args : List Byte) (s : State) : Host.Outcome State Fault Refusal :=
  .next (s.clearFault tag args)

/-- CLEAR_FAULT for a filter (R112, R131). -/
def execClearFaultFilter (tag : Byte) (args : List Byte) (s : State) :
    Host.Outcome State Fault Refusal :=
  .next (s.clearFault tag args)

/-! ## Segments (R5) -/

/-- ISOLATE_SEGMENT (R5). -/
def execIsolateSegment (tag : Byte) (args : List Byte) (s : State) : Host.Outcome State Fault Refusal :=
  .next (s.manage .isolateSegment tag s.modeNow.loads (ixArg 1 4 args) fun g =>
    if s.segState g = .forced then s.reply .done
    else (s.cutSegment g .forced .forced).reply .done)

/-- RESTORE_SEGMENT (R5): a FORCED segment becomes RECOVERING; any other is BAD_ARG. -/
def execRestoreSegment (tag : Byte) (args : List Byte) (s : State) : Host.Outcome State Fault Refusal :=
  .next (s.manage .restoreSegment tag s.modeNow.loads (ixArg 1 4 args) fun g =>
    if s.segState g = .forced then (s.recoverSegment g).reply .done else s.reply .badArg)

end Sys2Proof.Machine
end

