-- ==== Sys2Proof/Machine/TableRequests.lean ====
section
/-!
DEFINITION. The requests of the Management Unit: fields, live state, the settings store and the conditions
(R162-R168).
-/

namespace Sys2Proof.Machine

/-- The arguments are a SET_FIELD of the liveness period (R144; log entry 23): table 9, index 0, field 1,
and a value of four bytes. -/
def isPeriodWrite : List Byte → Bool
  | [t, i, f, _, _, _, _] => t == 9 && i == 0 && f == 1
  | _ => false

/-- The field and the value of a SET_FIELD (R162): one byte each for table, index and field, four for the
value. -/
def fieldArgs : List Byte → Option (FieldRef × Nat)
  | [t, i, f, v3, v2, v1, v0] =>
    (FieldRef.of t.toNat i.toNat f.toNat).map fun r => (r, numOf [v3, v2, v1, v0])
  | _ => none

/-- The body of SET_FIELD: a write in flight gives BUSY before the arguments are looked at (R162). -/
def State.setFieldBody (s : State) (args : List Byte) : Reply :=
  if s.mgmt.write.isSome then s.reply .busy
  else match fieldArgs args with
    | none => s.reply .badArg
    | some (r, v) => (s.writeField r v).1.reply (s.writeField r v).2

/-- SET_FIELD of the liveness period in SUPERVISED (R144): BAD_MODE, and in the same event the part enters
FALLBACK with cause CONFIG_BREACH. -/
def State.configBreach (s : State) (tag : Byte) : State :=
  if Config.responsePlaces ≤ s.placesTaken then s.dropRequest
  else (s.enterFallback .configBreach).answer .setField tag .badMode []

/-- SET_FIELD (R144, R162-R164). -/
def execSetField (tag : Byte) (args : List Byte) (s : State) : Host.Outcome State Fault Refusal :=
  .next (if s.modeNow = .supervised ∧ isPeriodWrite args = true then s.configBreach tag
    else s.manage .setField tag s.modeNow.loads (some args) s.setFieldBody)

/-- The field of a GET_FIELD (R162). -/
def readArgs : List Byte → Option FieldRef
  | [t, i, f] => FieldRef.of t.toNat i.toNat f.toNat
  | _ => none

/-- GET_FIELD (R162): the field's value in four bytes. -/
def execGetField (tag : Byte) (args : List Byte) (s : State) : Host.Outcome State Fault Refusal :=
  .next (s.manage .getField tag s.modeNow.reads (readArgs args) fun r =>
    s.replyData (bytesOf 4 (s.tables.readField r)))

/-- The data of GET_STATE(object kind, index, item) (R165). -/
def State.getStateArgs (s : State) : List Byte → Option (List Byte)
  | [k, i, n] => (s.stateItems k.toNat i.toNat).bind fun items => itemData items n.toNat
  | _ => none

/-- GET_STATE (R165): a read, which changes nothing. -/
def execGetState (tag : Byte) (args : List Byte) (s : State) : Host.Outcome State Fault Refusal :=
  .next (s.manage .getState tag s.modeNow.reads (s.getStateArgs args) s.replyData)

/-- STORE_SETTINGS (R166). -/
def execStoreSettings (tag : Byte) (args : List Byte) (s : State) : Host.Outcome State Fault Refusal :=
  .next (s.manage .storeSettings tag s.modeNow.loads (noArgs args) fun _ => s.storeBody false tag)

/-- The eight conditions in the order of R168; the live ones follow their sources. -/
def State.conditionByte (s : State) : Nat :=
  let c := s.mgmt.conditions
  maskOf [c.settingsInvalid, c.noticesDropped, c.responsesDropped, c.spCongested, c.livenessLate,
    s.pins.plantStop, s.pins.keyswitch, !s.clock.valid]

/-- READ_CONDITIONS (R168). -/
def execReadConditions (tag : Byte) (args : List Byte) (s : State) : Host.Outcome State Fault Refusal :=
  .next (s.manage .readConditions tag s.modeNow.reads (noArgs args) fun _ =>
    s.replyData (bytesOf 1 s.conditionByte))

/-- CLEAR_CONDITIONS (R168): the five latched flags are cleared. -/
def execClearConditions (tag : Byte) (args : List Byte) (s : State) :
    Host.Outcome State Fault Refusal :=
  .next (s.manage .clearConditions tag s.modeNow.loads (noArgs args) fun _ =>
    (s.updConditions fun _ => ⟨false, false, false, false, false⟩).reply .done)

end Sys2Proof.Machine
end

