-- ==== Sys2Proof/Machine/Filters.lean ====
section
/-!
DEFINITION. The timed events of the filters and of the restore (R96, R103, R111, R115, R117, R129, R133).
-/

namespace Sys2Proof.Machine

/-- Run hours with one second more (R96). -/
def RunHours.tick (r : RunHours) : RunHours :=
  if 3600 ≤ r.seconds + 1 then ⟨min 65535 (r.hours + 1), 0⟩ else ⟨r.hours, r.seconds + 1⟩

/-- The run hours of filter `f` count: IN_SERVICE with a class other than NONE (R96). -/
def State.countsHours (s : State) (f : FilterIx) : Bool :=
  decide ((s.seq.filters.get f).state = .inService)
    && s.flowClass (s.tables.filters.get f).circuit != .none

/-- RUN_HOURS_COUNT (R96): one second of run time; HOURS is judged when the whole hours change (R99). -/
def execRunHoursCount (f : FilterIx) (s : State) : Host.Outcome State Fault Refusal :=
  let r := s.mode.retained.runHours.get f
  .next (if s.countsHours f then
      let t := s.putRunHours f r.tick
      if r.tick.hours = r.hours then t else (t.rejudgeHours f).arbitrate
    else s)

/-- HOLD_OFF_EXPIRY (R103): the hold-off has run out and becomes none. -/
def execHoldOffExpiry (f : FilterIx) (s : State) : Host.Outcome State Fault Refusal :=
  .next (if (s.arbiter.filters.get f).holdOff = some 0 then
      (s.updArb f fun a => { a with holdOff := none }).arbitrate
    else s)

/-- The pressure of filter `f` counts as high at the end of its check (R111). -/
def State.pressureHigh (s : State) (f : FilterIx) : Bool :=
  match s.reading (dpSlot f) with
  | some v => decide ((s.tables.filters.get f).dpLimit ≤ v)
  | none => false

/-- The verdict of a check (R111): none while DP is ignored. -/
def State.verdict (s : State) (f : FilterIx) : State :=
  let a := s.arbiter.filters.get f
  let value := (s.reading (dpSlot f)).getD 0
  if a.dpIgnored then s
  else if s.pressureHigh f = false then s.updArb f fun a => { a with ineffective := 0 }
  else if a.ineffective = 0 then
    (s.updArb f fun a => { a with ineffective := 1 }).notify
      ⟨.filterIneffective, .filter, f.val + 1, .ineffective, value⟩
  else
    (s.updArb f fun a => { a with ineffective := 2, dpIgnored := true }).notify
      ⟨.filterIneffective, .filter, f.val + 1, .dpIgnored, value⟩

/-- CHECK_EXPIRY (R111): the verdict, the check becomes none, and DP and DP_URGENT are judged (R98). -/
def execCheckExpiry (f : FilterIx) (s : State) : Host.Outcome State Fault Refusal :=
  .next (if (s.arbiter.filters.get f).check = some 0 then
      (((s.verdict f).updArb f fun a => { a with check := none }).rejudgeDp f).arbitrate
    else s)

/-- SERVICE_ATTEMPT_EXPIRY (R115): NO_RETURN. During the restore the restore limit stands in its place
(R132, R133). -/
def execServiceAttemptExpiry (f : FilterIx) (s : State) : Host.Outcome State Fault Refusal :=
  .next (if (s.seq.filters.get f).attempt = some 0 ∧ s.seq.restore.running = false then
      (s.attemptExpired f).arbitrate
    else s)

/-- TRAVEL_TIMER_EXPIRY (R129): a move has not been confirmed: a NO_RETURN fault in RETURN, an abort with
NO_ECHO in the other stages. -/
def execTravelTimerExpiry (f : FilterIx) (s : State) : Host.Outcome State Fault Refusal :=
  .next (match s.backwashOf f with
    | none => s
    | some b => match b.step with
      | .move _ _ 0 =>
        (if b.stage = .return then s.noReturnFault f else s.abort f .noEcho).arbitrate
      | .move _ _ _ | .dwell _ => s)

/-- DWELL_END (R117): the dwell has run out and the next step begins. -/
def execDwellEnd (f : FilterIx) (s : State) : Host.Outcome State Fault Refusal :=
  .next (match s.backwashOf f with
    | none => s
    | some b => match b.step with
      | .dwell 0 => s.dwellEnded f b
      | .move _ _ _ | .dwell _ => s)

/-- The passing of the restore limit (R133): the filters, the lines, the pump's notice, then completion. That
their notices join the queue in this order is the model's choice (log entry 6). -/
def State.restoreExpired (s : State) : State :=
  let t := s.forFilters fun s f => if s.filterUnsettled f then s.attemptExpired f else s
  let t := t.forLines fun s i =>
    if s.lineUnsettled i then s.faultLine i .noEcho (s.gate.get i).admitted else s
  let t := match t.seq.restore.pumpSettled, t.pumpEntry with
    | false, some k => t.notify ⟨.pumpUnconfirmed, .entry, k.val, .noEcho, 0⟩
    | _, _ => t
  t.completeRestore

/-- RESTORE_LIMIT (R133): 120 s after the reset. -/
def execRestoreLimit (s : State) : Host.Outcome State Fault Refusal :=
  .next (if s.seq.restore.running = true ∧ s.seq.restore.remaining = 0 then s.restoreExpired else s)

end Sys2Proof.Machine
end

