-- ==== Sys2Proof/Machine/Lines.lean ====
section
/-!
DEFINITION. The timed events of the lines and their programmes (R63, R73, R82-R84, R91).
-/

namespace Sys2Proof.Machine

/-- RESUME_TIMER_EXPIRY (R63): the resume delay of a RESUMING line has run out. -/
def execResumeTimerExpiry (i : LineIx) (s : State) : Host.Outcome State Fault Refusal :=
  let l := s.gate.get i
  .next (if l.state = .resuming ∧ l.resume = 0 then s.resumeExpired i else s)

/-- CONFIRM_TIMER_EXPIRY (R73): the confirm timer has run out with the line AWAITING: NO_ECHO. During the
restore the restore limit stands in its place (R52). -/
def execConfirmTimerExpiry (i : LineIx) (s : State) : Host.Outcome State Fault Refusal :=
  let l := s.gate.get i
  .next (if l.confirmation = .awaiting (some 0) ∧ l.state ≠ .disabled ∧ l.state ≠ .faulted
      ∧ s.seq.restore.running = false
    then s.faultLine i .noEcho l.admitted else s)

/-- A rate in ml/h added for one second to whole ml and units of 1/3600 ml (R91): the whole ml gained and
the units left. -/
def addSecond (fraction rate : Nat) : Nat × Nat :=
  ((fraction + rate) / 3600, (fraction + rate) % 3600)

/-- The totaliser of line `i` takes a second of its confirmed rate (R91). -/
def State.addTotal (s : State) (i : LineIx) : State :=
  let rate := (s.gate.get i).confirmed
  { s with runner := { s.runner with totals := s.runner.totals.upd i fun t =>
    ⟨t.ml + BitVec.ofNat 32 (addSecond t.fraction rate).1, (addSecond t.fraction rate).2⟩ } }

/-- The batch delivered takes the same second (R83). -/
def Batch.add (b : Batch) (rate : Nat) : Batch :=
  ⟨b.ml + (addSecond b.fraction rate).1, (addSecond b.fraction rate).2⟩

/-- The volume of a BATCH step is reached (R83). -/
def StepRec.reached (r : StepRec) (b : Batch) : Bool :=
  match r.volume with
  | some v => decide (v ≤ b.ml)
  | none => false

/-- The batch delivered of line `i`'s programme takes a second, and its step ends where the volume is
reached (R83). -/
def State.addBatch (s : State) (i : LineIx) : State :=
  match s.runner.progs.get i with
  | none => s
  | some p => match p.batch with
    | none => s
    | some b =>
      let b := b.add (s.gate.get i).confirmed
      let p := { p with batch := some b }
      let t := s.putProg i (some p)
      if (s.stepOf i p).kind = .batch ∧ (s.stepOf i p).reached b = true then t.stepEnded i p else t

/-- TOTALISER_ADDITION (R91, R83): one second at which the line's permit is on. -/
def execTotaliserAddition (i : LineIx) (s : State) : Host.Outcome State Fault Refusal :=
  .next (if s.pins.permits.get i then (s.addTotal i).addBatch i else s)

/-- PROGRAMME_STEP_END (R84): the seconds remaining of a RATE step have reached 0. -/
def execProgrammeStepEnd (i : LineIx) (s : State) : Host.Outcome State Fault Refusal :=
  .next (match s.runner.progs.get i with
    | none => s
    | some p =>
      if p.remaining = 0 ∧ (s.stepOf i p).kind = .rate then s.stepEnded i p else s)

/-- BATCH_CAP (R83): the seconds remaining of a BATCH step have reached 0 below its volume: BATCH_SHORT,
and the step ends. R83 and R84 do not order BATCH_SHORT and the notices of what follows (CLAMPED of the next
step, PROGRAMME_END): BATCH_SHORT first is the model's choice (log entry 6). -/
def execBatchCap (i : LineIx) (s : State) : Host.Outcome State Fault Refusal :=
  .next (match s.runner.progs.get i with
    | none => s
    | some p => match p.batch with
      | none => s
      | some b =>
        if p.remaining = 0 ∧ (s.stepOf i p).kind = .batch ∧ (s.stepOf i p).reached b = false then
          (s.notify ⟨.batchShort, .line, i.val + 1, .cap, b.ml⟩).stepEnded i p
        else s)

end Sys2Proof.Machine
end

