-- ==== Sys2Proof/Machine/ModeTime.lean ====
section
/-!
DEFINITION. The events of the Mode Controller's timers, of the clock, of the settings store and of the
hardwired inputs (R68, R142, R145, R147, R148, R152, R154, R166).
-/

namespace Sys2Proof.Machine

/-- A period ends with the late flag clear (R145). -/
def State.periodLate (s : State) (l : Liveness) : State :=
  let t : State := { s with mode := { s.mode with
    state := .supervised { l with elapsed := 0, late := true } } }
  (t.notify ⟨.livenessLate, .mode, 3, .expired, l.period⟩).updConditions
    fun c => { c with livenessLate := true }

/-- LIVENESS_PERIOD_END (R145): the elapsed seconds have reached the period. -/
def execLivenessPeriodEnd (s : State) : Host.Outcome State Fault Refusal :=
  .next (match s.mode.state with
    | .supervised l =>
      if l.elapsed < l.period then s
      else if l.late then s.enterFallback .silent
      else s.periodLate l
    | .startup | .commission | .hold | .fallback _ | .lockout => s)

/-- RETURN_TIMER_EXPIRY (R147): the return count becomes 0 and the timer stops. -/
def execReturnTimerExpiry (s : State) : Host.Outcome State Fault Refusal :=
  .next (match s.mode.state with
    | .fallback f =>
      if f.returnTimer = some 0 then
        { s with mode := { s.mode with
          state := .fallback { f with returnCount := 0, returnTimer := none } } }
      else s
    | .startup | .commission | .hold | .supervised _ | .lockout => s)

/-- FALLBACK_LIMIT (R148): the fallback timer has reached the limit that stood at its start. -/
def execFallbackLimit (s : State) : Host.Outcome State Fault Refusal :=
  .next (match s.mode.state with
    | .fallback f =>
      if f.limitHours * 3600 ≤ f.timer then s.enterLockout .fallbackTooLong .fallbackTooLong else s
    | .startup | .commission | .hold | .supervised _ | .lockout => s)

/-- The clock passes into the next minute (R154). -/
def Clock.nextMinute (c : Clock) : Clock :=
  if c.minute + 1 < 1440 then { c with minute := c.minute + 1, second := 0 }
  else { c with day := if c.day + 1 < 7 then c.day + 1 else 0, minute := 0, second := 0 }

/-- MINUTE_CHANGE (R154): the second after second 59; the flags are evaluated once (R159). That a row sent at
second 59 acts at once, whether or not the next second of the timebase has come, is the model's choice (log
entry 22). -/
def execMinuteChange (s : State) : Host.Outcome State Fault Refusal :=
  .next (if s.clock.second = 59 then (s.updClock Clock.nextMinute).evaluate else s)

/-- A write of the settings store completes (R166): the store is valid, SETTINGS_INVALID is cleared, and
the response fills the place reserved. -/
def State.writeCompletes (s : State) (r : Request) (tag : Byte) : State :=
  let t : State := { s with mgmt := { s.mgmt with
    conditions := { s.mgmt.conditions with settingsInvalid := false }
    store := { s.mgmt.store with valid := true }
    write := none } }
  t.respond ⟨r.byte, tag, .done, []⟩

/-- SETTINGS_WRITE_END (R166): the write of STORE_SETTINGS completes. -/
def execSettingsWriteEnd (s : State) : Host.Outcome State Fault Refusal :=
  .next (match s.mgmt.write with
    | some w => if w.commit then s else s.writeCompletes .storeSettings w.tag
    | none => s)

/-- COMMIT_WRITE_END (R142): the write of COMMIT_COMMISSIONING completes; the commissioned flag is set and
a restart with start cause COMMIT becomes pending (R143). -/
def execCommitWriteEnd (s : State) : Host.Outcome State Fault Refusal :=
  .next (match s.mgmt.write with
    | some w =>
      if w.commit then
        let t := (s.updRetained fun r => { r with commissioned := true }).writeCompletes
          .commitCommissioning w.tag
        { t with mode := { t.mode with restart := some .commit } }
      else s
    | none => s)

/-- PLANT_STOP_ASSERTED (R68, R120, R124): the permits and PB go off, the lines take PLANT_STOP, and a
backwash aborts. An input already asserted has no edge. PB goes off first (R120); that the Dose Gate then
acts before the Sequencer is the model's choice (log entry 6). -/
def execPlantStopAsserted (s : State) : Host.Outcome State Fault Refusal :=
  .next (if s.pins.plantStop then s
    else (((s.setPb false).gatePlantStop true).forFilters fun t f => t.abort f .plantStop).arbitrate)

/-- PLANT_STOP_RELEASED (R68): PLANT_STOP leaves every line. -/
def execPlantStopReleased (s : State) : Host.Outcome State Fault Refusal :=
  .next (if s.pins.plantStop then (s.gatePlantStop false).arbitrate else s)

/-- KEYSWITCH_CHANGE (R152): the input, and with it the live condition KEYSWITCH (R168). -/
def execKeyswitchChange (on : Bool) (s : State) : Host.Outcome State Fault Refusal :=
  .next { s with pins := { s.pins with keyswitch := on } }

end Sys2Proof.Machine
end

