-- ==== Sys2Proof/Machine/Readings.lean ====
section
/-!
DEFINITION. The Reading Table's timed events (R39, R43, R44).
-/

namespace Sys2Proof.Machine

/-- The fields that slot `k`'s samples give are VALID and older than the stale limit (R39, R43). -/
def State.tooOld (s : State) (k : SlotIx) : Bool :=
  let r := (s.slots.get k).base
  match r.state, r.held with
  | .valid, some h => decide ((s.tables.slots.get k).staleLimit < h.age)
  | _, _ => false

/-- The fields that slot `k`'s samples give become STALE (R39, R43). -/
def State.makeStale (s : State) (k : SlotIx) : State :=
  let x := s.slots.get k
  s.putSlot k { x with base := { x.base with state := .stale } }

/-- SLOT_STALE (R39, R40): a VALID slot older than its limit becomes STALE, with READING_FAULT and the
report. R34 and R39 compare at a second of the timebase; the row is guarded by the age alone, so a row sent
between a lowered limit and the next second acts at once: the model's choice (log entry 22). -/
def execSlotStale (k : SlotIx) (s : State) : Host.Outcome State Fault Refusal :=
  let x := s.slots.get k
  .next (if x.sub = none ∧ s.tooOld k = true then
      ((s.makeStale k).readingFault k .stale ((x.base.held.map Held.age).getD 0)).reportSlot k
        x.effective
    else s)

/-- UNDERLYING_STALE (R43): the same under a substitute, with no notice and no report, and with the same
guard (log entry 22). -/
def execUnderlyingStale (k : SlotIx) (s : State) : Host.Outcome State Fault Refusal :=
  .next (if (s.slots.get k).sub ≠ none ∧ s.tooOld k = true then s.makeStale k else s)

/-- SUBSTITUTE_EXPIRY (R44): the seconds remaining have reached 0. -/
def execSubstituteExpiry (k : SlotIx) (s : State) : Host.Outcome State Fault Refusal :=
  .next (if (s.slots.get k).sub.map Substitute.remaining = some 0 then s.endSubstitute k .expired
    else s)

end Sys2Proof.Machine
end

