-- ==== Sys2Proof/Machine/Resets.lean ====
section
/-!
DEFINITION. The three resets (R137, R143).
-/

namespace Sys2Proof.Machine

/-- POWER_ON (R137): a reset with start cause POWER_ON; the clock is lost (R155). -/
def execPowerOn (s : State) : Host.Outcome State Fault Refusal :=
  .next (s.resetPart .powerOn)

/-- RESET_PIN (R137): a reset at once, counted as a recovery. -/
def execResetPin (s : State) : Host.Outcome State Fault Refusal :=
  .next (s.resetPart .resetPin)

/-- The request whose response a pending restart waits for (R143). -/
def StartCause.request : StartCause → Request
  | .commit => .commitCommissioning
  | .powerOn | .resetPin | .restartRequest => .restart

/-- The response that a pending restart waits for is still in the queue (R143). -/
def State.restartHeld (s : State) (cause : StartCause) : Bool :=
  s.ports.responses.any fun r => r.code == cause.request.byte && r.result == .done

/-- RESTART_RESET (R143): the pending restart takes place once its response has left the queue (log entry
14); with no restart pending it has no effect. -/
def execRestartReset (s : State) : Host.Outcome State Fault Refusal :=
  match s.mode.restart with
  | none => .next s
  | some cause => .next (if s.restartHeld cause then s else s.resetPart cause)

end Sys2Proof.Machine
end

