-- ==== Sys2Proof/Machine/Tick.lean ====
section
/-!
DEFINITION. One second of the part's timebase (00_scope "Time"): every counter moves, and the events that
have come due are named as commands (log entries 1 and 3).
-/

namespace Sys2Proof.Machine

/-! ## The counters -/

/-- A timer that may be off, one second on. -/
def countDown (t : Option Nat) : Option Nat := t.map fun n => n - 1

/-- A segment's timer, in whole seconds (R4; log entry 4). -/
def Segment.tick (x : Segment) : Segment := { x with timer := countDown x.timer }

/-- The starved timer of a circuit in a starved period (R28). -/
def Circuit.tick (enabled : Bool) (x : Circuit) : Circuit :=
  if enabled && x.flowClass.starved then { x with starvedTimer := x.starvedTimer + 1 } else x

/-- The age of what a slot's samples gave, and the substitute's seconds (R33, R39, R43). -/
def Slot.tick (x : Slot) : Slot :=
  ⟨{ x.base with held := x.base.held.map fun h => { h with age := min 65535 (h.age + 1) } },
    x.sub.map fun u => { u with remaining := u.remaining - 1 }⟩

/-- The confirm timer (R73). -/
def Confirmation.tick : Confirmation → Confirmation
  | .confirmed => .confirmed
  | .awaiting t => .awaiting (countDown t)

/-- A line's confirm timer and resume timer (R62, R73). -/
def Line.tick (l : Line) : Line :=
  { l with confirmation := l.confirmation.tick, resume := l.resume - 1 }

/-- The time of the step in progress counts, or the programme is paused (R82). -/
def Prog.tick (counts : Bool) (p : Prog) : Prog :=
  if counts then { p with remaining := p.remaining - 1, paused := false } else { p with paused := true }

/-- The programme of line `i` (R82). -/
def State.tickProg (s : State) (i : LineIx) (p : Option Prog) : Option Prog :=
  p.map fun p => p.tick ((s.gate.get i).state.counts (s.stepOf i p).rate)

/-- A filter's hold-off and check (R103, R111). -/
def ArbFilter.tick (a : ArbFilter) : ArbFilter :=
  { a with holdOff := countDown a.holdOff, check := countDown a.check }

/-- The step of a backwash (R117). -/
def BwStep.tick : BwStep → BwStep
  | .move o awaited n => .move o awaited (n - 1)
  | .dwell n => .dwell (n - 1)

/-- A backwash in flight: its step and its elapsed seconds (R116, R117). -/
def FilterState.tick : FilterState → FilterState
  | .backwash b => .backwash { b with step := b.step.tick, elapsed := min 65535 (b.elapsed + 1) }
  | .unused => .unused
  | .inService => .inService
  | .faulted r => .faulted r

/-- A filter's service attempt and its backwash (R115-R117). -/
def SeqFilter.tick (q : SeqFilter) : SeqFilter :=
  { q with state := q.state.tick, attempt := countDown q.attempt }

/-- The restore limit (R132). -/
def Restore.tick (r : Restore) : Restore :=
  if r.running then { r with remaining := r.remaining - 1 } else r

/-- The Mode Controller's timers (R145, R147, R148). -/
def ModeState.tick : ModeState → ModeState
  | .supervised l => .supervised { l with elapsed := l.elapsed + 1 }
  | .fallback f => .fallback { f with timer := f.timer + 1, returnTimer := countDown f.returnTimer }
  | .startup => .startup
  | .commission => .commission
  | .hold => .hold
  | .lockout => .lockout

/-- The second of the clock; second 59 passes into the next minute by MINUTE_CHANGE (R154). -/
def Clock.tick (c : Clock) : Clock :=
  if c.second < 59 then { c with second := c.second + 1 } else c

/-- The seconds left of a write (R166). -/
def Write.tick (w : Write) : Write := { w with left := w.left - 1 }

/-- Every counter one second on. -/
def State.count (s : State) : State :=
  { s with
    ports := { s.ports with segments := s.ports.segments.mapIdx fun _ x => x.tick }
    mgmt := { s.mgmt with write := s.mgmt.write.map Write.tick }
    flow := { s.flow with
      windowSeconds := s.flow.windowSeconds + 1
      circuits := s.flow.circuits.mapIdx fun c x => x.tick (s.tables.circuits.get c).enabled }
    slots := s.slots.mapIdx fun _ x => x.tick
    gate := s.gate.mapIdx fun _ l => l.tick
    runner := { s.runner with progs := s.runner.progs.mapIdx s.tickProg }
    arbiter := { s.arbiter with filters := s.arbiter.filters.mapIdx fun _ a => a.tick }
    seq := { s.seq with
      filters := s.seq.filters.mapIdx fun _ q => q.tick
      restore := s.seq.restore.tick }
    mode := { s.mode with state := s.mode.state.tick }
    clock := s.clock.tick }

/-! ## The events that have come due -/

/-- The event `c`, if it is due. -/
def dueIf (b : Bool) (c : Instr) : List Instr := if b then [c] else []

/-- What the second before left to run out, and the sender has not ended: the timers of a segment (log
entry 4). -/
def State.overdue (s : State) : List Instr :=
  (List.finRange 4).flatMap fun g =>
    let x := s.ports.segments.get g
    dueIf (x.state == .lost && x.timer == some 0) (.lossTimerExpiry g)
      ++ dueIf (x.state == .recovering && x.timer == some 0) (.recoveryTimerExpiry g)

/-- A write of the settings store that the sender has not ended ends at the fourth second of the timebase
after its start, so within 4 s of it (R166; log entry 5). -/
def State.dueWrite (s : State) : List Instr :=
  match s.mgmt.write with
  | some w => dueIf (w.left == 0) (if w.commit then .commitWriteEnd else .settingsWriteEnd)
  | none => []

/-- The events of line `i` that are due: its second of dose before the end of its step (R83). -/
def State.dueLine (s : State) (i : LineIx) : List Instr :=
  let l := s.gate.get i
  dueIf (s.pins.permits.get i) (.totaliserAddition i)
    ++ (match s.runner.progs.get i with
      | some p => dueIf (p.remaining == 0)
          (if (s.stepOf i p).kind = .batch then .batchCap i else .programmeStepEnd i)
      | none => [])
    ++ dueIf (l.state == .resuming && l.resume == 0) (.resumeTimerExpiry i)
    ++ dueIf (l.confirmation == .awaiting (some 0)) (.confirmTimerExpiry i)

/-- The events of slot `k` that are due (R39, R43, R44). Where the underlying age and the substitute run out in
one second, R43 and R44 give no order: UNDERLYING_STALE first, so that the expiry leaves STALE and no reading
that is already too old, is the model's choice (log entry 3). -/
def State.dueSlot (s : State) (k : SlotIx) : List Instr :=
  let x := s.slots.get k
  dueIf (x.sub.isNone && s.tooOld k) (.slotStale k)
    ++ dueIf (x.sub.isSome && s.tooOld k) (.underlyingStale k)
    ++ dueIf (x.sub.map Substitute.remaining == some 0) (.substituteExpiry k)

/-- The events of a step of a backwash that are due (R117, R129). -/
def BwStep.due (f : FilterIx) : BwStep → List Instr
  | .move _ _ n => dueIf (n == 0) (.travelTimerExpiry f)
  | .dwell n => dueIf (n == 0) (.dwellEnd f)

/-- The events of filter `f` that are due (R96, R103, R111, R115, R117), in the order of log entry 3. -/
def State.dueFilter (s : State) (f : FilterIx) : List Instr :=
  dueIf (s.countsHours f) (.runHoursCount f)
    ++ dueIf ((s.arbiter.filters.get f).holdOff == some 0) (.holdOffExpiry f)
    ++ dueIf ((s.arbiter.filters.get f).check == some 0) (.checkExpiry f)
    ++ dueIf ((s.seq.filters.get f).attempt == some 0) (.serviceAttemptExpiry f)
    ++ (match s.backwashOf f with
      | some b => b.step.due f
      | none => [])

/-- The events of the Mode Controller's timers that are due (R145, R147, R148), in the order of log entry 3. -/
def ModeState.due : ModeState → List Instr
  | .supervised l => dueIf (decide (l.period ≤ l.elapsed)) .livenessPeriodEnd
  | .fallback f => dueIf (f.returnTimer == some 0) .returnTimerExpiry
      ++ dueIf (decide (f.limitHours * 3600 ≤ f.timer)) .fallbackLimit
  | .startup | .commission | .hold | .lockout => []

/-- The events due in a second whose counters have moved, in the order of log entry 3; `minute` says that
the clock passes into a new minute. -/
def State.due (s : State) (minute : Bool) : List Instr :=
  s.dueWrite
    ++ dueIf minute .minuteChange
    ++ (List.finRange 12).flatMap s.dueLine
    ++ dueIf (decide (Config.windowSeconds ≤ s.flow.windowSeconds)) .windowEnd
    ++ (List.finRange 6).flatMap (fun c => dueIf (s.starvedLongDue c) (.starvedLong c))
    ++ (List.finRange 22).flatMap s.dueSlot
    ++ (List.finRange 8).flatMap s.dueFilter
    ++ dueIf (s.seq.restore.running && s.seq.restore.remaining == 0) .restoreLimit
    ++ s.mode.state.due

/-- One second of the timebase: the counters move and the events due are put in the queue. -/
def State.tick (s : State) : State :=
  let t := s.count
  { t with pending := s.overdue ++ t.due (s.clock.second == 59) }

end Sys2Proof.Machine
end

