-- ==== Sys2Proof/Machine/Dispatch.lean ====
section
/-!
DEFINITION. The command's effect on everything but the queue: one arm for each row of the table.
-/

namespace Sys2Proof.Machine

/-- The effect of a command, one direct call of its meaning. -/
def exec (i : Instr) (s : State) : Host.Outcome State Fault Refusal :=
  match i with
  | .powerOn => Sys2Proof.Machine.execPowerOn s
  | .resetPin => Sys2Proof.Machine.execResetPin s
  | .restartReset => Sys2Proof.Machine.execRestartReset s
  | .frameDiscarded port bytes => Sys2Proof.Machine.execFrameDiscarded port bytes s
  | .foreignFrame port kind source destination => Sys2Proof.Machine.execForeignFrame port kind source destination s
  | .misplacedStation seg kind source destination => Sys2Proof.Machine.execMisplacedStation seg kind source destination s
  | .stationCommand destination channel value => Sys2Proof.Machine.execStationCommand destination channel value s
  | .sample seg source channel value quality => Sys2Proof.Machine.execSample seg source channel value quality s
  | .echo seg source channel value => Sys2Proof.Machine.execEcho seg source channel value s
  | .requestDiscarded code tag => Sys2Proof.Machine.execRequestDiscarded code tag s
  | .unknownRequestCode code tag => Sys2Proof.Machine.execUnknownRequestCode code tag s
  | .transmitStart port => Sys2Proof.Machine.execTransmitStart port s
  | .signalLoss seg => Sys2Proof.Machine.execSignalLoss seg s
  | .signalReturn seg => Sys2Proof.Machine.execSignalReturn seg s
  | .lossTimerExpiry seg => Sys2Proof.Machine.execLossTimerExpiry seg s
  | .recoveryTimerExpiry seg => Sys2Proof.Machine.execRecoveryTimerExpiry seg s
  | .flowPulse input => Sys2Proof.Machine.execFlowPulse input s
  | .windowEnd => Sys2Proof.Machine.execWindowEnd s
  | .starvedLong circuit => Sys2Proof.Machine.execStarvedLong circuit s
  | .slotStale slot => Sys2Proof.Machine.execSlotStale slot s
  | .underlyingStale slot => Sys2Proof.Machine.execUnderlyingStale slot s
  | .substituteExpiry slot => Sys2Proof.Machine.execSubstituteExpiry slot s
  | .resumeTimerExpiry line => Sys2Proof.Machine.execResumeTimerExpiry line s
  | .confirmTimerExpiry line => Sys2Proof.Machine.execConfirmTimerExpiry line s
  | .totaliserAddition line => Sys2Proof.Machine.execTotaliserAddition line s
  | .programmeStepEnd line => Sys2Proof.Machine.execProgrammeStepEnd line s
  | .batchCap line => Sys2Proof.Machine.execBatchCap line s
  | .runHoursCount filter => Sys2Proof.Machine.execRunHoursCount filter s
  | .holdOffExpiry filter => Sys2Proof.Machine.execHoldOffExpiry filter s
  | .checkExpiry filter => Sys2Proof.Machine.execCheckExpiry filter s
  | .serviceAttemptExpiry filter => Sys2Proof.Machine.execServiceAttemptExpiry filter s
  | .travelTimerExpiry filter => Sys2Proof.Machine.execTravelTimerExpiry filter s
  | .dwellEnd filter => Sys2Proof.Machine.execDwellEnd filter s
  | .restoreLimit => Sys2Proof.Machine.execRestoreLimit s
  | .livenessPeriodEnd => Sys2Proof.Machine.execLivenessPeriodEnd s
  | .returnTimerExpiry => Sys2Proof.Machine.execReturnTimerExpiry s
  | .fallbackLimit => Sys2Proof.Machine.execFallbackLimit s
  | .minuteChange => Sys2Proof.Machine.execMinuteChange s
  | .settingsWriteEnd => Sys2Proof.Machine.execSettingsWriteEnd s
  | .commitWriteEnd => Sys2Proof.Machine.execCommitWriteEnd s
  | .plantStopAsserted => Sys2Proof.Machine.execPlantStopAsserted s
  | .plantStopReleased => Sys2Proof.Machine.execPlantStopReleased s
  | .keyswitchChange on => Sys2Proof.Machine.execKeyswitchChange on s
  | .refresh tag args => Sys2Proof.Machine.execRefresh tag args s
  | .enterSupervised tag args => Sys2Proof.Machine.execEnterSupervised tag args s
  | .enterHold tag args => Sys2Proof.Machine.execEnterHold tag args s
  | .lock tag args => Sys2Proof.Machine.execLock tag args s
  | .release tag args => Sys2Proof.Machine.execRelease tag args s
  | .commitCommissioning tag args => Sys2Proof.Machine.execCommitCommissioning tag args s
  | .restart tag args => Sys2Proof.Machine.execRestart tag args s
  | .clearRecoveryCount tag args => Sys2Proof.Machine.execClearRecoveryCount tag args s
  | .setClock tag args => Sys2Proof.Machine.execSetClock tag args s
  | .setField tag args => Sys2Proof.Machine.execSetField tag args s
  | .getField tag args => Sys2Proof.Machine.execGetField tag args s
  | .getState tag args => Sys2Proof.Machine.execGetState tag args s
  | .storeSettings tag args => Sys2Proof.Machine.execStoreSettings tag args s
  | .setSubstitute tag args => Sys2Proof.Machine.execSetSubstitute tag args s
  | .clearSubstitute tag args => Sys2Proof.Machine.execClearSubstitute tag args s
  | .startProgramme tag args => Sys2Proof.Machine.execStartProgramme tag args s
  | .stopProgramme tag args => Sys2Proof.Machine.execStopProgramme tag args s
  | .backwashNow tag args => Sys2Proof.Machine.execBackwashNow tag args s
  | .abortBackwash tag args => Sys2Proof.Machine.execAbortBackwash tag args s
  | .maskFilter tag args => Sys2Proof.Machine.execMaskFilter tag args s
  | .unmaskFilter tag args => Sys2Proof.Machine.execUnmaskFilter tag args s
  | .setLowest tag args => Sys2Proof.Machine.execSetLowest tag args s
  | .clearFaultLine tag args => Sys2Proof.Machine.execClearFaultLine tag args s
  | .clearFaultFilter tag args => Sys2Proof.Machine.execClearFaultFilter tag args s
  | .snapshot tag args => Sys2Proof.Machine.execSnapshot tag args s
  | .readSnapshot tag args => Sys2Proof.Machine.execReadSnapshot tag args s
  | .isolateSegment tag args => Sys2Proof.Machine.execIsolateSegment tag args s
  | .restoreSegment tag args => Sys2Proof.Machine.execRestoreSegment tag args s
  | .readConditions tag args => Sys2Proof.Machine.execReadConditions tag args s
  | .clearConditions tag args => Sys2Proof.Machine.execClearConditions tag args s

end Sys2Proof.Machine
end

