-- ==== Sys2Proof/Safety.lean ====
section
/-!
DEFINITION. What counts as a safe state of the block: the guarantees of 00_scope "Guarantees of the part",
each as a condition on one state, with what it needs of the state to be kept by every step.
-/

namespace Sys2Proof.Safety

open Sys2Proof.Machine

/-- Time of day in its ranges (R154). -/
abbrev ClockOk (s : State) : Prop :=
  s.clock.day ≤ 6 ∧ s.clock.minute ≤ 1439 ∧ s.clock.second ≤ 59

/-- Window and last counts never pass 4095 (R20). -/
abbrev CountsOk (s : State) : Prop :=
  ∀ i : InputIx, (s.flow.inputs.get i).windowCount ≤ 4095 ∧ (s.flow.inputs.get i).lastCount ≤ 4095

/-- The ranks of F1 to F8 are the numbers 0 to 7, each held by one filter (R109). -/
abbrev RanksOk (s : State) : Prop :=
  (∀ f : FilterIx, (s.arbiter.filters.get f).rank ≤ 7) ∧
    ∀ f g : FilterIx, (s.arbiter.filters.get f).rank = (s.arbiter.filters.get g).rank → f = g

/-- The mode is STARTUP or LOCKOUT. -/
abbrev Stopped (s : State) : Prop := s.modeNow = .startup ∨ s.modeNow = .lockout

/-- An aborted backwash is in RETURN, or in RINSE by a supervisor's abort (R125, R126). -/
abbrev AbortsOk (s : State) : Prop :=
  ∀ f : FilterIx, ∀ b ∈ s.backwashOf f, ∀ x ∈ b.abort,
    b.stage = .return ∨ (x.1 = .supervisorAbort ∧ b.stage = .rinse)

/-- The lockout output follows the retained flag; a set flag is met in STARTUP or LOCKOUT only, with PB
off (R150) and no backwash before RETURN (R124, R125). -/
abbrev LockoutOk (s : State) : Prop :=
  s.pins.lockout = s.mode.retained.lockoutFlag ∧ AbortsOk s ∧
    (s.mode.retained.lockoutFlag = true → Stopped s ∧ s.pins.pb = false ∧
      ∀ f : FilterIx, ∀ b ∈ s.backwashOf f, b.stage = .return)

/-- The recovery count is at most 5 (R136), and exceeds the recovery limit in STARTUP or LOCKOUT only
(R139). -/
abbrev RecoveryOk (s : State) : Prop :=
  s.mode.retained.recoveryCount ≤ 5 ∧
    (s.tables.params.recoveryLimit < s.mode.retained.recoveryCount → Stopped s)

/-- The restore runs exactly while the mode is STARTUP (R132). -/
abbrev RestoreOk (s : State) : Prop :=
  s.seq.restore.running = true ↔ s.modeNow = .startup

/-- A substitute stands on FREE_CL and PH slots only, for at most 240 minutes more, and in SUPERVISED only
(R42, R46). -/
abbrev SubstitutesOk (s : State) : Prop :=
  ∀ k : SlotIx, (s.slots.get k).sub.isSome = true →
    k.val ≤ 11 ∧ s.modeNow = .supervised ∧
      ∀ u ∈ (s.slots.get k).sub, u.remaining ≤ 240 * 60

/-- One waiting own frame for a target key, and no more than the port's places (R14, R15); a cut-off
segment holds none (R6). -/
abbrev SegmentOk (x : Segment) : Prop :=
  x.forwarded.length ≤ 16 ∧ x.own.length ≤ 24 ∧
    x.own.Pairwise (fun a b => a.sameKey b = false) ∧
    (x.state.cutOff = true → x.own = [] ∧ x.forwarded = [])

/-- The places of the five ports' queues (R14-R17). -/
abbrev QueuesOk (s : State) : Prop :=
  s.ports.notices.length ≤ 32 ∧ s.ports.forwarded.length ≤ 16 ∧ s.placesTaken ≤ 8 ∧
    ∀ g : SegIx, SegmentOk (s.ports.segments.get g)

/-- A disabled line or circuit holds no live state that could dose (R23, R51). -/
abbrev DisabledOk (s : State) : Prop :=
  (∀ i : LineIx, (s.tables.lines.get i).enabled = false → (s.gate.get i).state = .disabled) ∧
    ∀ c : CircuitIx, (s.tables.circuits.get c).enabled = false → s.flowClass c = .none

/-- A line that is not DOSING has admitted rate 0 (R50). -/
abbrev IdleZero (s : State) : Prop :=
  ∀ i : LineIx, (s.gate.get i).state ≠ .dosing → (s.gate.get i).admitted = 0

/-- A permit is on only while the four conditions of R55 hold. -/
abbrev PermitsOk (s : State) : Prop :=
  ∀ i : LineIx, s.pins.permits.get i = true → s.permitDue i = true

/-- Among the lines that share an injection point at most one has an admitted rate above 0 (R60). -/
abbrev ExclusionOk (s : State) : Prop :=
  ∀ i j : LineIx, i ≠ j →
    (s.tables.lines.get i).injectionPoint = (s.tables.lines.get j).injectionPoint →
    (s.gate.get i).admitted = 0 ∨ (s.gate.get j).admitted = 0

/-- The Dose Gate's guarantees, with what keeps them. -/
abbrev DoseOk (s : State) : Prop :=
  DisabledOk s ∧ IdleZero s ∧ PermitsOk s ∧ ExclusionOk s

/-- Exactly the granted filter is in BACKWASH (R116). -/
abbrev GrantOk (s : State) : Prop :=
  ∀ f : FilterIx, (s.backwashOf f).isSome = true ↔ s.arbiter.busy = some f

/-- A service attempt is met in UNUSED and FAULTED only, and an unassigned filter is UNUSED with none
(R113, R114). -/
abbrev AttemptsOk (s : State) : Prop :=
  ∀ f : FilterIx,
    ((s.seq.filters.get f).attempt.isSome = true →
      (s.backwashOf f).isNone = true ∧ (s.seq.filters.get f).state ≠ .inService) ∧
    ((s.tables.filters.get f).assigned = false →
      (s.seq.filters.get f).state = .unused ∧ (s.seq.filters.get f).attempt = none)

/-- The step of WASH during which PB may be on: the pump's start and the dwell (R119, R120). -/
def washing (b : Backwash) : Bool :=
  b.stage == .wash &&
    match b.step with
    | .move .pump awaited _ => awaited == 1
    | .move .valves _ _ => false
    | .dwell _ => true

/-- PB is on only with a filter in WASH, its WASH position confirmed and the plant stop input released
(R120). -/
abbrev PumpPermitOk (s : State) : Prop :=
  s.pins.pb = true → s.seq.pumpRun = true ∧ s.pins.plantStop = false ∧
    ∃ f : FilterIx, ((s.backwashOf f).map washing).getD false = true

/-- The Sequencer's guarantees, with what keeps them. -/
abbrev BackwashOk (s : State) : Prop :=
  GrantOk s ∧ AttemptsOk s ∧ PumpPermitOk s

/-- Keys of enabled entries are unique, and so are the objects that R13 makes unique (R13, R36); a step is a
RATE step or has a volume and a rate (R78); start and stop levels are apart (R104). -/
abbrev TablesOk (t : Tables) : Prop :=
  (∀ j k : Fin 48, (t.admission.get j).enabled = true → (t.admission.get k).enabled = true →
      (t.admission.get j).station = (t.admission.get k).station →
      (t.admission.get j).channel = (t.admission.get k).channel → j = k) ∧
    (∀ j k : Fin 48, (t.admission.get j).enabled = true → (t.admission.get k).enabled = true →
      (t.admission.get j).object.exclusive = true →
      (t.admission.get j).object = (t.admission.get k).object →
      (t.admission.get j).objectIndex = (t.admission.get k).objectIndex → j = k) ∧
    (∀ j k : Fin 64, (t.sampleMap.get j).enabled = true → (t.sampleMap.get k).enabled = true →
      (t.sampleMap.get j).station = (t.sampleMap.get k).station →
      (t.sampleMap.get j).channel = (t.sampleMap.get k).channel → j = k) ∧
    (∀ k : Fin 256, (t.steps.get k).valid = true) ∧
    t.params.supplyStop < t.params.supplyStart ∧ t.params.sumpStart < t.params.sumpStop

/-- The working tables, and the stored ones that a reset would load (R166, R167). -/
abbrev StoredOk (s : State) : Prop :=
  TablesOk s.tables ∧
    (s.mgmt.store.valid = true ∨ s.mgmt.write.isSome = true → TablesOk s.mgmt.store.tables)

end Sys2Proof.Safety
end

