-- ==== Sys2Proof/Certificates/Slice0/Obligations.lean ====
section
/-!
DEFINITION. The statements for the provers. Each takes its rules from spec/; a clause that rests on a choice of
the model says so and names the log entry.
-/

namespace Sys2Proof.Claims

open Sys2Proof.Machine Sys2Proof.Safety

/-- The request, the tag and the argument bytes of a management row. -/
def requestOf : Instr → Option (Request × Byte × List Byte)
  | .refresh t a => some (.refresh, t, a)
  | .enterSupervised t a => some (.enterSupervised, t, a)
  | .enterHold t a => some (.enterHold, t, a)
  | .lock t a => some (.lock, t, a)
  | .release t a => some (.release, t, a)
  | .commitCommissioning t a => some (.commitCommissioning, t, a)
  | .restart t a => some (.restart, t, a)
  | .clearRecoveryCount t a => some (.clearRecoveryCount, t, a)
  | .setClock t a => some (.setClock, t, a)
  | .setField t a => some (.setField, t, a)
  | .getField t a => some (.getField, t, a)
  | .getState t a => some (.getState, t, a)
  | .storeSettings t a => some (.storeSettings, t, a)
  | .setSubstitute t a => some (.setSubstitute, t, a)
  | .clearSubstitute t a => some (.clearSubstitute, t, a)
  | .startProgramme t a => some (.startProgramme, t, a)
  | .stopProgramme t a => some (.stopProgramme, t, a)
  | .backwashNow t a => some (.backwashNow, t, a)
  | .abortBackwash t a => some (.abortBackwash, t, a)
  | .maskFilter t a => some (.maskFilter, t, a)
  | .unmaskFilter t a => some (.unmaskFilter, t, a)
  | .setLowest t a => some (.setLowest, t, a)
  | .clearFaultLine t a => some (.clearFault, t, a)
  | .clearFaultFilter t a => some (.clearFault, t, a)
  | .snapshot t a => some (.snapshot, t, a)
  | .readSnapshot t a => some (.readSnapshot, t, a)
  | .isolateSegment t a => some (.isolateSegment, t, a)
  | .restoreSegment t a => some (.restoreSegment, t, a)
  | .readConditions t a => some (.readConditions, t, a)
  | .clearConditions t a => some (.clearConditions, t, a)
  | _ => none

/-- The table of R153: the modes that accept a request, `clear` for a READ_SNAPSHOT with clear. -/
def accepts (clear : Bool) (r : Request) (m : Mode) : Bool :=
  match r with
  | .getField | .getState | .readConditions | .snapshot => true
  | .readSnapshot => !clear || m == .commission || m == .hold || m == .supervised
  | .refresh | .enterHold => m == .supervised || m == .fallback
  | .enterSupervised => m == .hold
  | .lock => m != .startup && m != .lockout
  | .release => m == .lockout
  | .restart | .setClock => m != .startup
  | .commitCommissioning => m == .commission
  | .clearRecoveryCount | .setSubstitute | .clearSubstitute | .startProgramme | .stopProgramme =>
    m == .supervised
  | .setField | .storeSettings | .backwashNow | .abortBackwash | .maskFilter | .unmaskFilter
  | .setLowest | .clearFault | .isolateSegment | .restoreSegment | .clearConditions =>
    m == .commission || m == .hold || m == .supervised

/-- The index ranges of the table of R165, by the object kind codes of section 10.7. -/
def stateIndexOk (kind index : Nat) : Bool :=
  match kind with
  | 2 => decide (1 ≤ index ∧ index ≤ 4)
  | 5 | 11 => decide (1 ≤ index ∧ index ≤ 12)
  | 6 => decide (1 ≤ index ∧ index ≤ 6)
  | 7 | 9 => decide (1 ≤ index ∧ index ≤ 8)
  | 8 => decide (index ≤ 21)
  | 10 | 12 | 13 | 14 => index == 0
  | _ => false

/-- The argument check of R161: the arguments have the length and the ranges of section 10.7 and of the request's
rule (R5, R42, R45, R76, R89, R90, R92, R93, R100-R102, R110, R112, R156, R162, R165), with what the rule tests
in one check with a range: the plausible range of a substitute (R42), the enabled line of a programme (R89)
and the assigned filter of a backwash (R100). Of a SET_FIELD it is that a field is named; its value is R162's
own. -/
def argumentsOk (s : State) (r : Request) (args : List Byte) : Bool :=
  let index := fun (low high : Nat) => match args with
    | [x] => decide (low ≤ x.toNat ∧ x.toNat ≤ high)
    | _ => false
  match r with
  | .refresh | .enterSupervised | .enterHold | .lock | .release | .commitCommissioning | .restart
  | .clearRecoveryCount | .storeSettings | .readConditions | .clearConditions => args == []
  | .setClock => match args with
    | [d, m1, m0, x] =>
      decide (d.toNat ≤ 6 ∧ m1.toNat * 256 + m0.toNat ≤ 1439 ∧ x.toNat ≤ 59)
    | _ => false
  | .setField => match args with
    | [t, i, f, _, _, _, _] => (FieldRef.of t.toNat i.toNat f.toNat).isSome
    | _ => false
  | .getField => match args with
    | [t, i, f] => (FieldRef.of t.toNat i.toNat f.toNat).isSome
    | _ => false
  | .getState => match args with
    | [k, i, n] => stateIndexOk k.toNat i.toNat &&
      (s.stateItems k.toNat i.toNat).all fun items => decide (n.toNat ≤ items.length)
    | _ => false
  | .setSubstitute => match args with
    | [k, v1, v0, m] => (List.finRange 12).any fun n =>
      let c := s.tables.slots.get ⟨n.val, by omega⟩
      let v := v1.toNat * 256 + v0.toNat
      decide (k.toNat = n.val ∧ c.minimum ≤ v ∧ v ≤ c.maximum ∧ 1 ≤ m.toNat ∧ m.toNat ≤ 240)
    | _ => false
  | .clearSubstitute => index 0 11
  | .startProgramme => match args with
    | [x, c] => (List.finRange 12).any fun i => decide (x.toNat = i.val + 1 ∧ c.toNat ≤ 1) &&
      (s.tables.lines.get i).enabled
    | _ => false
  | .backwashNow => match args with
    | [x] => (List.finRange 8).any fun f => decide (x.toNat = f.val + 1) &&
      (s.tables.filters.get f).assigned
    | _ => false
  | .stopProgramme => index 1 12
  | .abortBackwash | .maskFilter | .unmaskFilter | .setLowest => index 1 8
  | .clearFault => match args with
    | [k, x] => decide (1 ≤ x.toNat ∧
      (k.toNat = 5 ∧ x.toNat ≤ 12 ∨ k.toNat = 9 ∧ x.toNat ≤ 8))
    | _ => false
  | .snapshot => match args with
    | [h, l] => decide (0 < h.toNat * 256 + l.toNat ∧ h.toNat * 256 + l.toNat < 4096)
    | _ => false
  | .readSnapshot => match args with
    | [x, c] => decide (1 ≤ x.toNat ∧ x.toNat ≤ 12 ∧ c.toNat ≤ 1)
    | _ => false
  | .isolateSegment | .restoreSegment => index 1 4

/-- A response place is free and no restart is pending: a request its mode accepts is executed (R17,
R161). -/
abbrev Ready (s : State) : Prop := s.placesTaken < 8 ∧ s.mode.restart = none

/-- A command that is a reset (R137). -/
def isReset : Instr → Bool
  | .powerOn | .resetPin | .restartReset => true
  | _ => false

/-- A frame from a station listed on its UP segment: it passes R3 and the source test of R11. -/
abbrev Listed (s : State) (g : SegIx) (source : Byte) : Prop :=
  s.segState g = .up ∧ source.toNat ≤ 121 ∧ s.segOf source.toNat = some g

/-- The least of the terms of R53 that apply to a dosing line with this request. -/
def rateFor (s : State) (i : LineIx) (request : Nat) : Nat :=
  let c := s.tables.lines.get i
  let a := min request c.maxRate
  let b := if s.flowClass c.circuit = .reduced then min a (c.maxRate * c.reducedFraction / 100) else a
  if s.blindApplies i then min b c.blindRate else b

/-- What the retained record and the start are after a reset of kind `cause`, before the start-up decision
(R136, R137, R155). -/
abbrev AfterReset (s t : State) (cause : StartCause) : Prop :=
  t.mode.retained.commissioned = s.mode.retained.commissioned ∧
    t.mode.retained.runHours = s.mode.retained.runHours ∧
    t.mode.retained.startCause = cause ∧
    t.mode.restart = none ∧
    (s.mode.retained.lockoutFlag = true → t.mode.retained.lockoutFlag = true) ∧
    t.mode.retained.recoveryCount =
      (if cause = .resetPin ∨ cause = .restartRequest
        then min 5 (s.mode.retained.recoveryCount + 1) else s.mode.retained.recoveryCount) ∧
    t.tables = (if s.mgmt.store.valid then s.mgmt.store.tables else Tables.defaults) ∧
    t.mgmt.store = s.mgmt.store ∧ t.mgmt.write = none ∧
    t.mgmt.conditions.settingsInvalid = !s.mgmt.store.valid ∧
    t.ports.responses = [] ∧ t.ports.forwarded = [] ∧
    t.pins.pb = false ∧ (∀ i : LineIx, t.pins.permits.get i = false) ∧
    (∀ g : SegIx, t.segState g = .recovering) ∧
    (∀ i : LineIx, (t.gate.get i).admitted = 0 ∧ (t.runner.totals.get i) = ⟨0, 0⟩ ∧
      t.runner.progs.get i = none) ∧
    (∀ k : SlotIx, t.slots.get k = ⟨⟨.absent, none⟩, none⟩) ∧
    (∀ f : FilterIx, (t.seq.filters.get f).state = .unused ∧
      (t.arbiter.filters.get f).rank = 7 - f.val) ∧
    t.arbiter.busy = none ∧ t.seq.pumpRun = false ∧
    (cause = .powerOn → t.clock.day = 0 ∧ t.clock.minute = 0 ∧ t.clock.second = 0 ∧
      t.clock.valid = false) ∧
    (cause ≠ .powerOn → t.clock.day = s.clock.day ∧ t.clock.minute = s.clock.minute ∧
      t.clock.second = s.clock.second ∧ t.clock.valid = s.clock.valid)

/-- The plant's side of the state: the lines with their permits, the programmes, the flow, the readings, the
filters, the Arbiter, the mode and the clock. -/
abbrev SamePlant (s t : State) : Prop :=
  t.gate = s.gate ∧ t.pins.permits = s.pins.permits ∧ t.pins.pb = s.pins.pb ∧
    t.pins.lockout = s.pins.lockout ∧ t.runner.progs = s.runner.progs ∧
    t.flow.circuits = s.flow.circuits ∧ t.slots = s.slots ∧ t.arbiter = s.arbiter ∧
    t.seq = s.seq ∧ t.mode.state = s.mode.state ∧ t.clock = s.clock ∧ t.tables = s.tables

/-- The commands that read, answer, move frames outward or count a pulse. -/
def isQuiet : Instr → Bool
  | .frameDiscarded _ _ | .foreignFrame _ _ _ _ | .misplacedStation _ _ _ _
  | .requestDiscarded _ _ | .unknownRequestCode _ _ | .transmitStart _ | .flowPulse _
  | .settingsWriteEnd | .commitWriteEnd | .keyswitchChange _
  | .commitCommissioning _ _ | .restart _ _ | .clearRecoveryCount _ _ | .getField _ _
  | .getState _ _ | .storeSettings _ _ | .snapshot _ _ | .readSnapshot _ _
  | .readConditions _ _ | .clearConditions _ _ => true
  | _ => false

/-- The commands of one line: its timers and programme, its dose second and the requests that name it. -/
def isLineCommand : Instr → Bool
  | .resumeTimerExpiry _ | .confirmTimerExpiry _ | .totaliserAddition _ | .programmeStepEnd _
  | .batchCap _ | .startProgramme _ _ | .stopProgramme _ _ => true
  | .clearFaultLine _ (k :: _) | .clearFaultFilter _ (k :: _) => k == 5
  | _ => false

/-- The commands of one filter and of one segment. -/
def isWashCommand : Instr → Bool
  | .runHoursCount _ | .holdOffExpiry _ | .checkExpiry _ | .serviceAttemptExpiry _
  | .travelTimerExpiry _ | .dwellEnd _ | .backwashNow _ _ | .abortBackwash _ _ | .maskFilter _ _
  | .unmaskFilter _ _ | .setLowest _ _ | .signalLoss _ | .signalReturn _ | .lossTimerExpiry _
  | .recoveryTimerExpiry _ | .isolateSegment _ _ | .restoreSegment _ _ => true
  | .clearFaultLine _ (k :: _) | .clearFaultFilter _ (k :: _) => k == 9
  | _ => false

/-- The tables, the circuits and flow inputs, the readings, the clock, the mode with the flags of its record,
the settings store, and the inputs. -/
abbrev SameBlocks (s t : State) : Prop :=
  t.tables = s.tables ∧ t.flow = s.flow ∧ t.slots = s.slots ∧ t.clock = s.clock ∧
    t.mode.state = s.mode.state ∧ t.mode.restart = s.mode.restart ∧
    t.mode.retained.commissioned = s.mode.retained.commissioned ∧
    t.mode.retained.lockoutFlag = s.mode.retained.lockoutFlag ∧
    t.mode.retained.recoveryCount = s.mode.retained.recoveryCount ∧
    t.mgmt.store = s.mgmt.store ∧ t.mgmt.write = s.mgmt.write ∧
    t.pins.plantStop = s.pins.plantStop ∧ t.pins.keyswitch = s.pins.keyswitch ∧
    t.pins.lockout = s.pins.lockout

/-- The notice joined the queue, or found its 32 places taken and was dropped (R17). -/
abbrev Raised (t : State) (n : Notice) : Prop :=
  n ∈ t.ports.notices ∨
    (32 ≤ t.ports.notices.length ∧ t.mgmt.conditions.noticesDropped = true)

/-- The COMMAND of `value` to the target key of admission entry `k`. -/
def commandTo (s : State) (k : Fin 48) (value : Nat) : Cmd :=
  ⟨(s.tables.admission.get k).station, (s.tables.admission.get k).channel, value⟩

/-- Two commands have one target key (R15). -/
abbrev OneKey (a b : Cmd) : Prop := a.station = b.station ∧ a.channel = b.channel

/-- The table of R15: the own queue of segment port `x` once COMMAND `c` has been offered to it. -/
def ownAfter (x : Segment) (c : Cmd) : List Cmd :=
  if x.state ≠ .up ∧ x.state ≠ .lost then x.own
  else if ∃ d ∈ x.own, OneKey d c then x.own.map fun d => if OneKey d c then c else d
  else if x.own.length < 24 then x.own ++ [c] else x.own

/-- From `s` to `t` no own frame is offered. -/
abbrev OffersNone (s t : State) : Prop :=
  ∀ g : SegIx, (t.ports.segments.get g).own = (s.ports.segments.get g).own

/-- From `s` to `t` one own frame is offered and no other: the COMMAND of `value` to the key of entry `k`, on
the segment its station lies on (R15, R54). With no entry, or with the station on no segment, none is. -/
abbrev OffersOnly (s t : State) (k : Option (Fin 48)) (value : Nat) : Prop :=
  ∀ g : SegIx, (t.ports.segments.get g).own =
    match k with
    | some e => if s.segOfEntry k = some g
        then ownAfter (s.ports.segments.get g) (commandTo s e value)
        else (s.ports.segments.get g).own
    | none => (s.ports.segments.get g).own

/-- In `t`, from `s`, the COMMAND of `value` to the key of entry `k` waits in the own queue of the segment its
station lies on, if that is UP or LOST (R15): in place where one for the key waited, else behind those that
waited, if the queue had room for `room` frames more. The tables and the queues keep their guarantees. -/
abbrev Offers (s t : State) (k : Option (Fin 48)) (value room : Nat) : Prop :=
  TablesOk s.tables → QueuesOk s → ∀ (e : Fin 48) (g : SegIx), k = some e →
    s.segOfEntry k = some g → t.segState g = .up ∨ t.segState g = .lost →
    let before := (s.ports.segments.get g).own
    let after := (t.ports.segments.get g).own
    let c := commandTo s e value
    (∀ (n : Nat) (d : Cmd), before[n]? = some d → OneKey d c → after[n]? = some c) ∧
      ((∀ d ∈ before, ¬ OneKey d c) → before.length + room ≤ 24 →
        ∃ n : Nat, before.length ≤ n ∧ after[n]? = some c)

/-- From `s` to `t` every counter has moved by one second, and nothing else of what the counters belong to. -/
abbrev CountersMoved (s t : State) : Prop :=
  (∀ g : SegIx, t.ports.segments.get g = { s.ports.segments.get g with
      timer := (s.ports.segments.get g).timer.map fun n => n - 1 }) ∧
    t.mgmt.write = s.mgmt.write.map (fun w => ⟨w.commit, w.tag, w.left - 1⟩) ∧
    t.flow.windowSeconds = s.flow.windowSeconds + 1 ∧ t.flow.inputs = s.flow.inputs ∧
    (∀ c : CircuitIx, t.flow.circuits.get c = { s.flow.circuits.get c with
      starvedTimer := (s.flow.circuits.get c).starvedTimer +
        (if (s.tables.circuits.get c).enabled = true ∧
          (s.flowClass c = .low ∨ s.flowClass c = .none) then 1 else 0) }) ∧
    (∀ k : SlotIx, (t.slots.get k).base.state = (s.slots.get k).base.state ∧
      (t.slots.get k).base.held =
        (s.slots.get k).base.held.map (fun h => ⟨h.value, min 65535 (h.age + 1)⟩) ∧
      (t.slots.get k).sub = (s.slots.get k).sub.map (fun u => ⟨u.value, u.remaining - 1⟩)) ∧
    (∀ i : LineIx, t.gate.get i = { s.gate.get i with
      resume := (s.gate.get i).resume - 1
      confirmation := match (s.gate.get i).confirmation with
        | .awaiting (some n) => .awaiting (some (n - 1))
        | c => c }) ∧
    (∀ i : LineIx, t.runner.progs.get i = (s.runner.progs.get i).map fun p =>
      if (s.gate.get i).state = .dosing ∨
          ((s.gate.get i).state = .stopped ∧ (s.stepOf i p).rate = 0)
        then { p with remaining := p.remaining - 1, paused := false } else { p with paused := true }) ∧
    (∀ f : FilterIx, t.arbiter.filters.get f = { s.arbiter.filters.get f with
      holdOff := (s.arbiter.filters.get f).holdOff.map fun n => n - 1
      check := (s.arbiter.filters.get f).check.map fun n => n - 1 }) ∧
    (∀ f : FilterIx, t.seq.filters.get f = { s.seq.filters.get f with
      attempt := (s.seq.filters.get f).attempt.map fun n => n - 1
      state := match (s.seq.filters.get f).state with
        | .backwash b => .backwash { b with
            elapsed := min 65535 (b.elapsed + 1)
            step := match b.step with
              | .move o w n => .move o w (n - 1)
              | .dwell n => .dwell (n - 1) }
        | x => x }) ∧
    t.seq.restore = { s.seq.restore with
      remaining := s.seq.restore.remaining - (if s.seq.restore.running then 1 else 0) } ∧
    t.mode.state = (match s.mode.state with
      | .supervised l => .supervised { l with elapsed := l.elapsed + 1 }
      | .fallback f => .fallback { f with
          timer := f.timer + 1, returnTimer := f.returnTimer.map fun n => n - 1 }
      | m => m) ∧
    t.clock = { s.clock with
      second := if s.clock.second < 59 then s.clock.second + 1 else s.clock.second }

/-- The rows that a second of the timebase can bring due. -/
def isTimedEvent : Instr → Bool
  | .totaliserAddition _ | .programmeStepEnd _ | .batchCap _ | .resumeTimerExpiry _
  | .confirmTimerExpiry _ | .runHoursCount _ | .holdOffExpiry _ | .checkExpiry _
  | .serviceAttemptExpiry _ | .travelTimerExpiry _ | .dwellEnd _ | .restoreLimit
  | .lossTimerExpiry _ | .recoveryTimerExpiry _ | .windowEnd | .starvedLong _ | .slotStale _
  | .underlyingStale _ | .substituteExpiry _ | .livenessPeriodEnd | .returnTimerExpiry
  | .fallbackLimit | .minuteChange | .settingsWriteEnd | .commitWriteEnd => true
  | _ => false

/-- After a second that led from `s` to `t` exactly the events that have come due are in the queue: those of the
lines and their programmes. -/
abbrev LineEventsDue (s t : State) : Prop :=
  ∀ i : LineIx,
    (.totaliserAddition i ∈ t.pending ↔ s.pins.permits.get i = true) ∧
    (.programmeStepEnd i ∈ t.pending ↔ ∃ p, t.runner.progs.get i = some p ∧ p.remaining = 0 ∧
      (s.stepOf i p).kind = .rate) ∧
    (.batchCap i ∈ t.pending ↔ ∃ p, t.runner.progs.get i = some p ∧ p.remaining = 0 ∧
      (s.stepOf i p).kind = .batch) ∧
    (.resumeTimerExpiry i ∈ t.pending ↔ (t.gate.get i).state = .resuming ∧ (t.gate.get i).resume = 0) ∧
    (.confirmTimerExpiry i ∈ t.pending ↔ (t.gate.get i).confirmation = .awaiting (some 0))

/-- Those of the filters and the restore. -/
abbrev WashEventsDue (s t : State) : Prop :=
  (∀ f : FilterIx,
    (.runHoursCount f ∈ t.pending ↔ (s.seq.filters.get f).state = .inService ∧
      s.flowClass (s.tables.filters.get f).circuit ≠ .none) ∧
    (.holdOffExpiry f ∈ t.pending ↔ (t.arbiter.filters.get f).holdOff = some 0) ∧
    (.checkExpiry f ∈ t.pending ↔ (t.arbiter.filters.get f).check = some 0) ∧
    (.serviceAttemptExpiry f ∈ t.pending ↔ (t.seq.filters.get f).attempt = some 0) ∧
    (.travelTimerExpiry f ∈ t.pending ↔
      ∃ b o w, t.backwashOf f = some b ∧ b.step = .move o w 0) ∧
    (.dwellEnd f ∈ t.pending ↔ ∃ b, t.backwashOf f = some b ∧ b.step = .dwell 0)) ∧
  (.restoreLimit ∈ t.pending ↔ t.seq.restore.running = true ∧ t.seq.restore.remaining = 0)

/-- Those of the segments, the flow, the readings, the mode, the clock and the store. -/
abbrev OtherEventsDue (s t : State) : Prop :=
  (∀ g : SegIx,
    (.lossTimerExpiry g ∈ t.pending ↔
      s.segState g = .lost ∧ (s.ports.segments.get g).timer = some 0) ∧
    (.recoveryTimerExpiry g ∈ t.pending ↔
      s.segState g = .recovering ∧ (s.ports.segments.get g).timer = some 0)) ∧
  (.windowEnd ∈ t.pending ↔ 2 ≤ t.flow.windowSeconds) ∧
  (∀ c : CircuitIx, .starvedLong c ∈ t.pending ↔
    (s.tables.circuits.get c).enabled = true ∧ (s.flowClass c = .low ∨ s.flowClass c = .none) ∧
      (s.flow.circuits.get c).starvedReported = false ∧
      (s.tables.circuits.get c).starvedLimit ≤ (t.flow.circuits.get c).starvedTimer) ∧
  (∀ k : SlotIx,
    let tooOld := ∃ h, (t.slots.get k).base = ⟨.valid, some h⟩ ∧
      (s.tables.slots.get k).staleLimit < h.age
    (.slotStale k ∈ t.pending ↔ (t.slots.get k).sub = none ∧ tooOld) ∧
    (.underlyingStale k ∈ t.pending ↔ (t.slots.get k).sub ≠ none ∧ tooOld) ∧
    (.substituteExpiry k ∈ t.pending ↔ ∃ v, (t.slots.get k).sub = some ⟨v, 0⟩)) ∧
  (.livenessPeriodEnd ∈ t.pending ↔ ∃ l, t.mode.state = .supervised l ∧ l.period ≤ l.elapsed) ∧
  (.returnTimerExpiry ∈ t.pending ↔ ∃ f, t.mode.state = .fallback f ∧ f.returnTimer = some 0) ∧
  (.fallbackLimit ∈ t.pending ↔
    ∃ f, t.mode.state = .fallback f ∧ f.limitHours * 3600 ≤ f.timer) ∧
  (.minuteChange ∈ t.pending ↔ s.clock.second = 59) ∧
  (.settingsWriteEnd ∈ t.pending ↔ ∃ tag, t.mgmt.write = some ⟨false, tag, 0⟩) ∧
  (.commitWriteEnd ∈ t.pending ↔ ∃ tag, t.mgmt.write = some ⟨true, tag, 0⟩)

/-- The fourteen conditions of R105 for filter `f`. -/
abbrev MeetsAllConditions (s : State) (f : FilterIx) : Prop :=
  let a := s.arbiter.filters.get f
  let c := (s.tables.filters.get f).circuit
  (s.seq.filters.get f).state = .inService ∧ a.masked = false ∧ a.holdOff = none ∧
    (a.requests.dp = true ∨ a.requests.dpUrgent = true ∨ a.requests.hours = true ∨
      a.requests.manual = true) ∧
    (s.modeNow = .supervised ∨ s.modeNow = .fallback) ∧ s.pins.plantStop = false ∧
    (s.flow.circuits.get c).circulation = .run ∧
    (s.flowClass c = .full ∨ s.flowClass c = .reduced) ∧
    (s.tables.circuits.get c).minFilters + 1 ≤ s.inServiceCount c ∧
    (∃ v, s.reading balanceSlot = some v ∧ s.tables.params.supplyStart ≤ v) ∧
    (∃ v, s.reading sumpSlot = some v ∧ v ≤ s.tables.params.sumpStart) ∧
    (∃ g, s.segOfEntry s.pumpEntry = some g ∧ s.segState g = .up) ∧
    (∃ g, s.segOfEntry (s.valveEntry f) = some g ∧ s.segState g = .up) ∧
    (a.requests.dpUrgent = true ∨ s.clock.washFlags.get c = true)

/-- What the selection at `u` saw of the plant, and what stands of it in `t`. -/
abbrev SelectedFrom (u t : State) : Prop :=
  t.tables = u.tables ∧ t.flow = u.flow ∧ t.slots = u.slots ∧ t.mode = u.mode ∧ t.clock = u.clock ∧
    t.pins.plantStop = u.pins.plantStop ∧ ∀ g : SegIx, t.segState g = u.segState g

/-- The line shares its injection point with none but disabled lines, which admit nothing (R60, R51). -/
abbrev Alone (s : State) (i : LineIx) : Prop :=
  ∀ j : LineIx, j ≠ i →
    (s.tables.lines.get j).injectionPoint = (s.tables.lines.get i).injectionPoint →
    (s.tables.lines.get j).enabled = false ∧ (s.gate.get j).state = .disabled ∧
      (s.gate.get j).admitted = 0

/-- From `s` to `t` the release of line `i` by the Runner offers the one own frame that it needs (R54, R85): a
0, if the request was the programme's and the line was admitted a rate. -/
abbrev StopsPump (s t : State) (i : LineIx) : Prop :=
  let l := s.gate.get i
  (l.source = .programme → l.admitted ≠ 0 → OffersOnly s t (s.lineEntry i) 0 ∧
    (t.gate.get i).confirmation = .awaiting (some (s.tables.lines.get i).confirmLimit)) ∧
    (l.source ≠ .programme ∨ l.admitted = 0 → OffersNone s t)

/-- From `s` to `t` the programme on line `i` ends with PROGRAMME_END (R85) after the notices `before`: its
request is withdrawn if it was the programme's. -/
abbrev ProgrammeEnds (s t : State) (i : LineIx) (cause : Cause) (index : Nat) (before : List Notice) :
    Prop :=
  t.runner.progs.get i = none ∧
    ((s.gate.get i).source = .programme →
      (t.gate.get i).requested = 0 ∧ (t.gate.get i).source = .none ∧ (t.gate.get i).admitted = 0 ∧
        (t.gate.get i).state =
          (if (s.gate.get i).state = .dosing ∨ (s.gate.get i).state = .resuming then .stopped
            else (s.gate.get i).state)) ∧
    ((s.gate.get i).source ≠ .programme → t.gate = s.gate) ∧ StopsPump s t i ∧
    (∀ j, j ≠ i → t.gate.get j = s.gate.get j ∧ t.runner.progs.get j = s.runner.progs.get j) ∧
    (s.ports.notices.length + before.length < 32 → t.ports.notices =
      s.ports.notices ++ before ++ [⟨.programmeEnd, .line, i.val + 1, cause, index⟩])

/-- From `s` to `t` line `i` starts the step at `position` of programme `w`, whose first step is `first`, after
the notices `before` (R81, R58): the programme state is set and the rate submitted; a line that waits keeps
it; a refusal ends the programme. -/
abbrev StepBegins (s t : State) (i : LineIx) (w : Which) (first position : Nat)
    (before : List Notice) : Prop :=
  let r := s.stepAt (first + position)
  let l := s.gate.get i
  let modeOk := s.modeNow == .fallback || (s.modeNow == .supervised && w.isShock)
  let waits := l.state = .inhibited ∨ l.state = .resuming
  (s.lineTest i r.rate modeOk = none →
    t.runner.progs.get i = some ⟨w, position, r.duration * 60,
      if r.kind = .batch then some ⟨0, 0⟩ else none, decide waits⟩ ∧
    (t.gate.get i).requested = r.rate ∧ (t.gate.get i).source = .programme ∧
    (t.gate.get i).causes = l.causes ∧
    (waits → (t.gate.get i).state = l.state ∧ (t.gate.get i).admitted = l.admitted) ∧
    (¬ waits → (t.gate.get i).state = (if r.rate = 0 then .stopped else .dosing) ∧
      (t.gate.get i).admitted =
        if r.rate = 0 ∨ l.causes.any = true then 0 else rateFor s i r.rate) ∧
    ((t.gate.get i).admitted = l.admitted → OffersNone s t ∧
      (t.gate.get i).confirmation = l.confirmation) ∧
    ((t.gate.get i).admitted ≠ l.admitted →
      OffersOnly s t (s.lineEntry i) (t.gate.get i).admitted ∧
      (t.gate.get i).confirmation = .awaiting (some (s.tables.lines.get i).confirmLimit)) ∧
    (∀ j, j ≠ i → t.gate.get j = s.gate.get j ∧ t.runner.progs.get j = s.runner.progs.get j) ∧
    (s.ports.notices.length + before.length < 32 →
      (waits ∨ (t.gate.get i).admitted = r.rate → t.ports.notices = s.ports.notices ++ before) ∧
      (¬ waits → (t.gate.get i).admitted ≠ r.rate → t.ports.notices = s.ports.notices ++ before ++
        [⟨.clamped, .line, i.val + 1, (t.gate.get i).binding.cause, (t.gate.get i).admitted⟩]))) ∧
  (∀ c, s.lineTest i r.rate modeOk = some c → ProgrammeEnds s t i c (first + position) before)

/-- From `s` to `t` the step in progress of programme `p` on line `i` ends (R84): the next step of its `count`
steps, the first step again of a looping A or B, or the programme's end. -/
abbrev StepEnds (s t : State) (i : LineIx) (p : Prog) (first count : Nat) (before : List Notice) :
    Prop :=
  (p.position + 1 < count → StepBegins s t i p.which first (p.position + 1) before) ∧
    (count ≤ p.position + 1 → p.which.isShock = false → (s.stepOf i p).loop = true →
      StepBegins s t i p.which first 0 before) ∧
    (count ≤ p.position + 1 → p.which.isShock = true ∨ (s.stepOf i p).loop = false →
      ProgrammeEnds s t i .completed (first + p.position) before)

/-- In `t` line `i` is at the start of programme `w`, whose first step is at index `first` (R81, R86). -/
abbrev RunsFromFirst (t : State) (i : LineIx) (w : Which) (first : Nat) : Prop :=
  let r := t.stepAt first
  (∃ q, t.runner.progs.get i = some q ∧ q.which = w ∧ q.position = 0 ∧
    q.remaining = r.duration * 60 ∧ q.batch = if r.kind = .batch then some ⟨0, 0⟩ else none) ∧
    (t.gate.get i).requested = r.rate ∧ (t.gate.get i).source = .programme

/-- Line `i` runs no programme and asks for nothing. -/
abbrev AsksNothing (t : State) (i : LineIx) : Prop :=
  t.runner.progs.get i = none ∧ (t.gate.get i).requested = 0 ∧ (t.gate.get i).source = .none ∧
    (t.gate.get i).admitted = 0

/-- Line `i` stands as its causes and its terms give it (R53, R61, R62), with HOLD and LOCKOUT absent (R69). -/
abbrev Settled (s : State) (i : LineIx) : Prop :=
  let l := s.gate.get i
  (l.state = .stopped ∨ l.state = .dosing ∨ l.state = .resuming → l.causes.any = false) ∧
    (l.state = .inhibited → l.causes.any = true) ∧ l.causes.hold = false ∧
    l.causes.lockout = false ∧ l.causes.backwash = s.backwashCause i ∧
    l.admitted = (s.admittedRate i).1

/-- Line `i` can take a programme's request of this rate: no other line that is enabled shares its point, it is
neither DISABLED nor FAULTED, and holds neither CIRC_STOP nor PLANT_STOP (R56). -/
abbrev TakesProgramme (s : State) (i : LineIx) (rate : Nat) : Prop :=
  Alone s i ∧ (s.gate.get i).state ≠ .disabled ∧ (s.gate.get i).state ≠ .faulted ∧
    (s.gate.get i).causes.circStop = false ∧ (s.gate.get i).causes.plantStop = false ∧ rate ≤ 60000

/-- From `s` to `t` the bed of filter `f` is marked unrinsed, with its notice, where backwash `b` has wetted it
and not rinsed it (R127); else the flag stays. -/
abbrev MarksUnrinsed (s t : State) (f : FilterIx) (b : Backwash) (cause : Cause) : Prop :=
  (b.wetted = true → b.rinsed = false → (t.seq.filters.get f).unrinsed = true ∧
    Raised t ⟨.unrinsed, .filter, f.val + 1, cause, b.stage.number⟩) ∧
    (b.wetted = false ∨ b.rinsed = true →
      (t.seq.filters.get f).unrinsed = (s.seq.filters.get f).unrinsed)

/-- From `s` to `t` line `i` doses its request at the least of its terms (R53); a change of the rate is
originated to its pump, awaited, and told with CLAMPED where it leaves the line below its request (R54). -/
abbrev Doses (s t : State) (i : LineIx) : Prop :=
  let l := s.gate.get i
  let m := t.gate.get i
  m.state = .dosing ∧ m.requested = l.requested ∧ m.source = l.source ∧
    m.admitted = rateFor t i l.requested ∧
    (m.admitted ≠ l.admitted → Offers s t (s.lineEntry i) m.admitted 21 ∧
      m.confirmation = .awaiting (some (s.tables.lines.get i).confirmLimit) ∧
      (0 < m.admitted → m.admitted < l.requested →
        Raised t ⟨.clamped, .line, i.val + 1, m.binding.cause, m.admitted⟩))

/-- What the causes that line `i`, not DISABLED, holds in `t` make of it (R54, R55, R61-R63), none of them newly
latched: under a cause it is INHIBITED with its request kept, its permit off and its pump sent 0; with none
left it enters STOPPED, RESUMING or, with a resume delay of 0 s, DOSING; a FAULTED line stays so. A line that
doses shares its point with no enabled line here (R60). -/
abbrev LineFollows (s t : State) (i : LineIx) : Prop :=
  let l := s.gate.get i
  let m := t.gate.get i
  let c := s.tables.lines.get i
  let kept := m.requested = l.requested ∧ m.source = l.source
  let idle := m.admitted = 0 ∧ (l.admitted ≠ 0 → Offers s t (s.lineEntry i) 0 21)
  (t.pins.permits.get i = true ↔ m.state = .dosing ∧ 0 < m.admitted ∧
    (t.flowClass c.circuit = .full ∨ t.flowClass c.circuit = .reduced) ∧ t.pins.plantStop = false ∧
    (t.modeNow = .supervised ∨ t.modeNow = .fallback ∨ t.modeNow = .commission)) ∧
  (l.state = .faulted → m.state = .faulted ∧ kept ∧ idle) ∧
  (m.causes.any = true → l.state ≠ .faulted → m.state = .inhibited ∧ kept ∧ idle) ∧
  (m.causes.any = false →
    (l.state = .stopped → m.state = .stopped ∧ kept ∧ idle) ∧
    (l.state = .resuming → m.state = .resuming ∧ m.resume = l.resume ∧ kept ∧ idle) ∧
    (l.state = .inhibited → l.requested = 0 → m.state = .stopped ∧ kept ∧ idle) ∧
    (l.state = .inhibited → 0 < l.requested → 0 < c.resumeDelay →
      m.state = .resuming ∧ m.resume = c.resumeDelay ∧ kept ∧ idle) ∧
    (l.state = .inhibited → 0 < l.requested → c.resumeDelay = 0 → Alone s i → Doses s t i) ∧
    (l.state = .dosing → Alone s i → Doses s t i))

/-- Some filter whose configured circuit is `c` is in BACKWASH at SCOUR, WASH, SETTLE or RINSE (R66). -/
abbrev BedWashed (t : State) (c : CircuitIx) : Prop :=
  ∃ (f : FilterIx) (b : Backwash), (t.tables.filters.get f).circuit = c ∧ t.backwashOf f = some b ∧
    (b.stage = .scour ∨ b.stage = .wash ∨ b.stage = .settle ∨ b.stage = .rinse)

/-- From `s` to `t` a stage on circuit `c` is reported to the Dose Gate (R66): its COAG lines hold BACKWASH
exactly while a bed is washed, with what that makes of them, and no other line changes. -/
abbrev StageReported (s t : State) (c : CircuitIx) : Prop :=
  (∀ i : LineIx, (s.tables.lines.get i).kind = .coag → (s.tables.lines.get i).circuit = c →
    (s.gate.get i).state ≠ .disabled →
    (t.gate.get i).causes =
      { (s.gate.get i).causes with backwash := (t.gate.get i).causes.backwash } ∧
    ((t.gate.get i).causes.backwash = true ↔ BedWashed t c) ∧ LineFollows s t i) ∧
  ∀ i : LineIx, (s.tables.lines.get i).kind ≠ .coag ∨ (s.tables.lines.get i).circuit ≠ c →
    t.gate.get i = s.gate.get i

/-- A source or cause with hysteresis, set from above (R65 HYPO, R97): `old` becomes `new` by the reading. -/
abbrev JudgedHigh (reading : Option Nat) (limit hysteresis : Nat) (old new : Bool) : Prop :=
  (reading = none → new = false) ∧ ∀ v, reading = some v →
    (limit ≤ v → new = true) ∧ (v + hysteresis < limit → new = false) ∧
      (v < limit → limit ≤ v + hysteresis → new = old)

/-- The same set from below (R65 ACID). -/
abbrev JudgedLow (reading : Option Nat) (limit hysteresis : Nat) (old new : Bool) : Prop :=
  (reading = none → new = false) ∧ ∀ v, reading = some v →
    (v ≤ limit → new = true) ∧ (limit + hysteresis < v → new = false) ∧
      (limit < v → v ≤ limit + hysteresis → new = old)

/-- Slot `k` governs line `i` (R53). -/
abbrev Governs (s : State) (k : SlotIx) (i : LineIx) : Prop :=
  let c := s.tables.lines.get i
  (c.kind = .hypo ∧ k = freeClSlot c.circuit) ∨ (c.kind = .acid ∧ k = phSlot c.circuit)

/-- From `s` to `t` backwash `b` of filter `f` aborts to RETURN (R125): the pump stops with PB off and STOP, the
valves are sent to SERVICE, each in a queue with room for `room` frames more, and the bed is judged
(R127). -/
abbrev AbortsToReturn (s t : State) (f : FilterIx) (b : Backwash) (cause : AbortCause)
    (room : Nat) : Prop :=
  t.backwashOf f = some { b with
    stage := .return, abort := some (cause, b.stage)
    step := .move .valves 1 (s.tables.filters.get f).travelLimit } ∧
    t.pins.pb = false ∧ t.seq.pumpRun = false ∧ MarksUnrinsed s t f b cause.cause ∧
    Offers s t (s.valveEntry f) 1 room ∧ (s.seq.pumpRun = true → Offers s t s.pumpEntry 0 room)

/-- From `s` to `t` the change of slot `k`'s reading is reported to its reading blocks (R35): LIMIT of the lines
it governs (R65), DP and DP_URGENT of its filter (R97, R98), and the abort of a backwash in WASH by a tank
level (R123). A reading that has not changed is not reported. -/
abbrev ReadingReported (s t : State) (k : SlotIx) : Prop :=
  (t.reading k = s.reading k → t.gate = s.gate ∧ t.arbiter = s.arbiter ∧ t.seq = s.seq) ∧
  (t.reading k ≠ s.reading k →
    (∀ i : LineIx, Governs s k i → (s.gate.get i).state ≠ .disabled →
      let c := s.tables.lines.get i
      let old := (s.gate.get i).causes
      let new := (t.gate.get i).causes
      new = { old with limit := new.limit } ∧ LineFollows s t i ∧
        (s.modeNow = .commission → new.limit = false) ∧
        (s.modeNow ≠ .commission →
          (c.kind = .hypo → JudgedHigh (t.reading k) c.limit c.hysteresis old.limit new.limit) ∧
          (c.kind = .acid → JudgedLow (t.reading k) c.limit c.hysteresis old.limit new.limit))) ∧
    (k.val < 12 → ∀ i : LineIx, ¬ Governs s k i → t.gate.get i = s.gate.get i) ∧
    (∀ f : FilterIx, k = dpSlot f → (s.tables.filters.get f).assigned = true →
      let c := s.tables.filters.get f
      let a := s.arbiter.filters.get f
      let r := (t.arbiter.filters.get f).requests
      r.hours = a.requests.hours ∧ r.manual = a.requests.manual ∧
        (a.dpIgnored = true ∨ (t.arbiter.filters.get f).check.isSome = true →
          r.dp = false ∧ r.dpUrgent = false) ∧
        (a.dpIgnored = false → a.check = none →
          JudgedHigh (t.reading k) c.dpLimit c.dpHysteresis a.requests.dp r.dp ∧
          JudgedHigh (t.reading k) c.dpUrgentLimit c.dpHysteresis a.requests.dpUrgent
            r.dpUrgent)) ∧
    (k = balanceSlot ∨ k = sumpSlot → BackwashOk s → ∀ (f : FilterIx) (b : Backwash),
      s.backwashOf f = some b →
      (b.stage ≠ .wash → t.backwashOf f = some b) ∧
      (b.stage = .wash → b.abort = none →
        (t.reading balanceSlot = none ∨ t.reading sumpSlot = none →
          AbortsToReturn s t f b .readingLost 2) ∧
        ∀ u v, t.reading balanceSlot = some u → t.reading sumpSlot = some v →
          (u < s.tables.params.supplyStop → AbortsToReturn s t f b .supplyLow 2) ∧
          (s.tables.params.supplyStop ≤ u → s.tables.params.sumpStop < v →
            AbortsToReturn s t f b .sumpFull 2) ∧
          (s.tables.params.supplyStop ≤ u → v ≤ s.tables.params.sumpStop →
            t.backwashOf f = some b))))

/-- In `t` READING_FAULT has been sent for slot `k` at the end of a substitute, where the fields `r` that it
leaves are FAULTY or STALE (R40, R44). -/
abbrev FaultsNoticed (t : State) (k : SlotIx) (r : Reading) : Prop :=
  (∀ x, r.state = .faulty x →
    Raised t ⟨.readingFault, .slot, k.val, x.cause, (r.held.map Held.value).getD 0⟩) ∧
    (r.state = .stale →
      Raised t ⟨.readingFault, .slot, k.val, .stale, (r.held.map Held.age).getD 0⟩)

/-- The restore commands that are owed to the objects whose stations lie on segment `g`, in the order of log
entry 6 (R132, R52): SERVICE to the valves of each assigned filter, 0 to the pump of each enabled line, STOP to
the backwash pump. -/
def restoreCommands (s : State) (g : SegIx) : List Cmd :=
  let owed := fun (k : Option (Fin 48)) (value : Nat) =>
    if s.segOfEntry k = some g then k.map fun e => commandTo s e value else none
  (List.finRange 8).filterMap (fun f =>
      if (s.tables.filters.get f).assigned then owed (s.valveEntry f) 1 else none)
    ++ (List.finRange 12).filterMap (fun i =>
      if (s.tables.lines.get i).enabled then owed (s.lineEntry i) 0 else none)
    ++ (owed s.pumpEntry 0).toList

/-- From `s` to `t` segment `g` is cut off (R67, R124, R130): the lines reached through it are UNREACHABLE; the
filter in BACKWASH whose valves lie on it is FAULTED with LOST, and its pump sent STOP; one whose pump alone
lies on it aborts with UNREACHABLE, unless it is in RETURN; any other goes on. -/
abbrev CutsOff (s t : State) (g : SegIx) : Prop :=
  (∀ i : LineIx, s.segOfEntry (s.lineEntry i) = some g → (s.gate.get i).state ≠ .disabled →
    (t.gate.get i).causes.unreachable = true ∧ LineFollows s t i) ∧
  (BackwashOk s → ∀ (f : FilterIx) (b : Backwash), s.backwashOf f = some b →
    (s.segOfEntry (s.valveEntry f) = some g →
      (t.seq.filters.get f).state = .faulted .lost ∧ t.pins.pb = false ∧ t.seq.pumpRun = false ∧
        t.arbiter.busy ≠ some f ∧ (t.arbiter.filters.get f).requests.manual = false ∧
        Raised t ⟨.filterFault, .filter, f.val + 1, .lost, b.stage.number⟩ ∧
        MarksUnrinsed s t f b .unreachable ∧ Offers s t s.pumpEntry 0 1) ∧
    (s.segOfEntry (s.valveEntry f) ≠ some g → s.segOfEntry s.pumpEntry = some g →
      b.stage ≠ .return → b.abort = none → AbortsToReturn s t f b .unreachable 1) ∧
    (s.segOfEntry (s.valveEntry f) ≠ some g →
      s.segOfEntry s.pumpEntry ≠ some g ∨ b.stage = .return → t.backwashOf f = some b))

end Sys2Proof.Claims

open Sys2Proof Sys2Proof.Machine Sys2Proof.Safety Sys2Proof.Claims

/-! ## The step -/

/-- The command at the front of the queue takes effect, with the queue's rest left to wait. -/
def Obligations.StepRunsTheFrontCommand : Prop :=
  ∀ (c : Instr) (rest : List Instr) (s : State), s.pending = c :: rest →
    step s = exec c { s with pending := rest }

/-- On an empty queue one second of the timebase passes (the model's choice: log entry 1): every counter moves
by one, and exactly the events that have come due, each once, and no other command are put in the queue (log
entry 3; the timers of a segment that the second before left at 0, log entry 4, and the write's end, log
entry 5, among them). The pins, the tables, the busy filter, the record, the totals, the notices, the
conditions, the responses and the pending restart are as they were. -/
def Obligations.EmptyQueuePassesOneSecond : Prop :=
  ∀ s : State, s.pending = [] → ∃ t : State, step s = .next t ∧ CountersMoved s t ∧
    LineEventsDue s t ∧ WashEventsDue s t ∧ OtherEventsDue s t ∧
    (∀ c ∈ t.pending, isTimedEvent c = true) ∧ t.pending.Nodup ∧
    t.pins = s.pins ∧ t.tables = s.tables ∧ t.arbiter.busy = s.arbiter.busy ∧
    t.seq.pumpRun = s.seq.pumpRun ∧ t.mode.retained = s.mode.retained ∧
    t.mode.restart = s.mode.restart ∧ t.ports.notices = s.ports.notices ∧
    t.ports.responses = s.ports.responses ∧ t.ports.forwarded = s.ports.forwarded ∧
    t.mgmt.conditions = s.mgmt.conditions ∧ t.mgmt.store = s.mgmt.store ∧
    t.runner.totals = s.runner.totals ∧ t.runner.latches = s.runner.latches

/-- Every command answers a next state, and leaves the queue of waiting commands as it stands. That a reset too
leaves that queue is the model's choice (log entry 25). -/
def Obligations.EveryCommandAnswersANextState : Prop :=
  ∀ (c : Instr) (s : State), ∃ t : State, exec c s = .next t ∧ t.pending = s.pending

/-! ## Guarantees kept by every step -/

/-- R19, R20, R154: the time of day stays in its ranges, and window counts and last counts at most 4095. -/
def Obligations.ClockAndPulseCountsStayInRange : Prop :=
  (∀ s t : State, ClockOk s → step s = .next t → ClockOk t) ∧
    ∀ s t : State, CountsOk s → step s = .next t → CountsOk t

/-- R109: the ranks stay the numbers 0 to 7, each held by one filter. -/
def Obligations.RanksStayAPermutation : Prop :=
  ∀ s t : State, RanksOk s → step s = .next t → RanksOk t

/-- R150: the lockout output is the retained flag; while the flag is set the mode is STARTUP or LOCKOUT and PB
and every permit are off; a power-on leaves flag and output set, and the start-up decision then goes to
LOCKOUT; the flag is cleared by a RELEASE alone. `PermitsOk` is kept by every step as part of `DoseOk`. -/
def Obligations.LockoutFollowsItsFlag : Prop :=
  (∀ s t : State, LockoutOk s → step s = .next t → LockoutOk t) ∧
    (∀ s : State, LockoutOk s → PermitsOk s → s.mode.retained.lockoutFlag = true →
      s.pins.lockout = true ∧ s.pins.pb = false ∧ ∀ i : LineIx, s.pins.permits.get i = false) ∧
    (∀ s : State, LockoutOk s → s.mode.retained.lockoutFlag = false → s.pins.lockout = false) ∧
    (∀ s : State, s.mode.retained.lockoutFlag = true →
      s.startUpDecision.modeNow = .lockout ∧
      ∃ t : State, exec .powerOn s = .next t ∧ t.pins.lockout = true ∧
        t.mode.retained.lockoutFlag = true ∧ (t.modeNow = .startup ∨ t.modeNow = .lockout)) ∧
    (∀ (c : Instr) (s t : State), exec c s = .next t → s.mode.retained.lockoutFlag = true →
      t.mode.retained.lockoutFlag = false → ∃ tag args, c = .release tag args)

/-- R136, R139: the recovery count stays at most 5, and exceeds the recovery limit in STARTUP and LOCKOUT
only. -/
def Obligations.RecoveryCountStaysWithinItsLimit : Prop :=
  ∀ s t : State, RecoveryOk s → step s = .next t → RecoveryOk t

/-- R42, R46, R132, R133, R138: the restore runs exactly while the mode is STARTUP; and then a substitute stands
on FREE_CL and PH slots only, for at most 240 minutes, in SUPERVISED only. -/
def Obligations.RestoreAndSubstitutesStayBounded : Prop :=
  (∀ s t : State, RestoreOk s → step s = .next t → RestoreOk t) ∧
    ∀ s t : State, RestoreOk s → SubstitutesOk s → step s = .next t → SubstitutesOk t

/-- R6, R14-R17: the five ports' queues keep their bounds, an own queue its one frame for a key, and a cut-off
segment's queues stay empty. -/
def Obligations.QueuesStayWithinTheirPlaces : Prop :=
  ∀ s t : State, QueuesOk s → step s = .next t → QueuesOk t

/-- R23, R50, R55, R60: a disabled line or circuit stays at rest, a line that is not DOSING admits 0, a permit
is on only under the four conditions of R55, and lines at one injection point exclude each other. -/
def Obligations.DosingGuaranteesAreKept : Prop :=
  ∀ s t : State, DoseOk s → step s = .next t → DoseOk t

/-- R113-R116, R120: the granted filter and no other is in BACKWASH, and PB is on only with that filter in
WASH, its position confirmed, and the plant stop input released. R105-R107, R116: a filter is eligible when
the fourteen conditions hold; the winner is eligible, of those that hold DP_URGENT if any eligible filter
does, and of highest rank among these; a FREE Arbiter grants the winner, whose valves are sent SHUT (R116), and
else changes nothing; and no
command brings a filter into BACKWASH but by such a selection at the end of its event, from IN_SERVICE, with
the Arbiter FREE. That the notice names a source of the set selected by is log entry 15 (DEDUCED). -/
def Obligations.BackwashGuaranteesAreKept : Prop :=
  (∀ s t : State, BackwashOk s → step s = .next t → BackwashOk t) ∧
    (∀ (s : State) (f : FilterIx), s.eligible f = true ↔ MeetsAllConditions s f) ∧
    (∀ s : State, s.winner = none ↔ ∀ f, s.eligible f = false) ∧
    (∀ (s : State) (f : FilterIx), s.winner = some f → s.eligible f = true ∧
      ∀ g, s.eligible g = true →
        ((s.arbiter.filters.get g).requests.dpUrgent = true →
          (s.arbiter.filters.get f).requests.dpUrgent = true) ∧
        ((s.arbiter.filters.get g).requests.dpUrgent =
            (s.arbiter.filters.get f).requests.dpUrgent →
          (s.arbiter.filters.get g).rank ≤ (s.arbiter.filters.get f).rank)) ∧
    (∀ s : State, s.arbiter.busy ≠ none ∨ s.winner = none → s.arbitrate = s) ∧
    (∀ (s : State) (f : FilterIx), s.arbiter.busy = none → s.winner = some f →
      let r := (s.arbiter.filters.get f).requests
      s.arbitrate.arbiter.busy = some f ∧ (s.arbitrate.arbiter.filters.get f).check = none ∧
        (∀ g, (s.arbitrate.arbiter.filters.get g).rank = (s.arbiter.filters.get g).rank) ∧
        s.arbitrate.backwashOf f = some ⟨.isolate,
          .move .valves 2 (s.tables.filters.get f).travelLimit, none, false, false, 0⟩ ∧
        Offers s s.arbitrate (s.valveEntry f) 2 1 ∧
        Raised s.arbitrate ⟨.backwashGranted, .filter, f.val + 1,
          if r.dpUrgent then .dpUrgent else if r.dp then .dp else if r.hours then .hours else .manual,
          (s.arbiter.filters.get f).rank⟩) ∧
    ∀ (c : Instr) (s t : State) (f : FilterIx), SubstitutesOk s → exec c s = .next t →
      s.backwashOf f = none → (t.backwashOf f).isSome = true →
      t.arbiter.busy = some f ∧ ∃ u : State, u.arbiter.busy = none ∧ u.winner = some f ∧
        (u.seq.filters.get f).state = .inService ∧ SelectedFrom u t ∧
        ∀ g, g ≠ f → t.seq.filters.get g = u.seq.filters.get g ∧
          t.arbiter.filters.get g = u.arbiter.filters.get g

/-- R13, R36, R78, R104, R163, R166: enabled keys and objects stay unique, steps and levels keep their
relations, in the working tables and in what a reset would load. -/
def Obligations.TablesStayConsistent : Prop :=
  ∀ s t : State, StoredOk s → step s = .next t → StoredOk t

/-- The guarantees hold right after the power-on of a part never started. -/
def Obligations.ResetMeetsEveryGuarantee : Prop :=
  ClockOk State.reset ∧ CountsOk State.reset ∧ RanksOk State.reset ∧ LockoutOk State.reset ∧
    RecoveryOk State.reset ∧ RestoreOk State.reset ∧ SubstitutesOk State.reset ∧
    QueuesOk State.reset ∧ DoseOk State.reset ∧ BackwashOk State.reset ∧ StoredOk State.reset

/-! ## Who may change what -/

/-- R91: a second of a line whose permit is on adds its confirmed rate, in units of 1/3600 ml, and the whole
part wraps at 2^32; a line whose permit is off adds nothing; and no command but the addition, a snapshot read
with clear and a reset changes a total. The model's own readings: a row sent with the permit off changes
nothing (log entry 2), each row sent is one second (log entry 22), the clear byte is 1 (log entry 11,
PRESUMED), and a pending restart is held while its response waits (log entry 14, DEDUCED). -/
def Obligations.TotalsChangeOnlyAsStated : Prop :=
  (∀ (s : State) (i : LineIx), s.pins.permits.get i = true →
      ∃ t : State, exec (.totaliserAddition i) s = .next t ∧
        (t.runner.totals.get i).fraction < 3600 ∧
        ((t.runner.totals.get i).ml.toNat * 3600 + (t.runner.totals.get i).fraction) % (2 ^ 32 * 3600) =
          ((s.runner.totals.get i).ml.toNat * 3600 + (s.runner.totals.get i).fraction +
            (s.gate.get i).confirmed) % (2 ^ 32 * 3600) ∧
        ∀ j, j ≠ i → t.runner.totals.get j = s.runner.totals.get j) ∧
    (∀ (s : State) (i : LineIx), s.pins.permits.get i = false →
      exec (.totaliserAddition i) s = .next s) ∧
    (∀ (c : Instr) (s t : State), exec c s = .next t → t.runner.totals ≠ s.runner.totals →
      (∃ i, c = .totaliserAddition i) ∨ (∃ tag x, c = .readSnapshot tag [x, 1]) ∨
        isReset c = true) ∧
    (∀ (s t : State), exec .resetPin s = .next t ∨ exec .powerOn s = .next t ∨
        (s.mode.restart.map s.restartHeld = some false ∧ exec .restartReset s = .next t) →
      ∀ i : LineIx, t.runner.totals.get i = ⟨0, 0⟩)

/-- Frames of the working tables, of the flow inputs, of the readings and of the time of day: the commands that
may change each. -/
def Obligations.TablesFlowReadingsAndClockHaveTheirOwnCommands : Prop :=
  (∀ (c : Instr) (s t : State), exec c s = .next t → t.tables ≠ s.tables →
      isReset c = true ∨ ∃ tag args, c = .setField tag args) ∧
  (∀ (c : Instr) (s t : State), exec c s = .next t → t.flow.inputs ≠ s.flow.inputs →
      isReset c = true ∨ c = .windowEnd ∨ ∃ i, c = .flowPulse i) ∧
    (∀ (c : Instr) (s t : State), exec c s = .next t →
      (∃ k : SlotIx, (t.slots.get k).base ≠ (s.slots.get k).base) →
      isReset c = true ∨ (∃ g a n v q, c = .sample g a n v q) ∨
        (∃ k, c = .slotStale k) ∨ ∃ k, c = .underlyingStale k) ∧
    (∀ (c : Instr) (s t : State), exec c s = .next t →
      (t.clock.day ≠ s.clock.day ∨ t.clock.minute ≠ s.clock.minute ∨
        t.clock.second ≠ s.clock.second ∨ t.clock.valid ≠ s.clock.valid) →
      c = .powerOn ∨ c = .restartReset ∨ c = .minuteChange ∨ ∃ tag args, c = .setClock tag args)

/-- Frames of the commands of one line, and of those of one filter or one segment: the tables, the circuits, the
readings, the clock and the mode are as they were; a line's command leaves the Arbiter and the Sequencer too,
and a filter's or a segment's leaves the totals. -/
def Obligations.BlocksLeaveEachOther : Prop :=
  (∀ (c : Instr) (s t : State), isLineCommand c = true → exec c s = .next t → SameBlocks s t ∧
      t.arbiter = s.arbiter ∧ t.seq = s.seq ∧ t.pins.pb = s.pins.pb ∧
      t.mode.retained.runHours = s.mode.retained.runHours) ∧
    ∀ (c : Instr) (s t : State), isWashCommand c = true → exec c s = .next t → SameBlocks s t ∧
      t.runner.totals = s.runner.totals ∧ t.runner.latches = s.runner.latches

/-- Frame of the commands that read, answer, move frames outward or count a pulse. -/
def Obligations.QuietCommandsLeaveThePlant : Prop :=
  ∀ (c : Instr) (s t : State), isQuiet c = true → exec c s = .next t → SamePlant s t

/-! ## Resets -/

/-- R136, R137, R155, R167: what each kind of reset leaves, the restart pending among them once its response
has left the queue. When a pending restart takes place (`restartHeld`), and that RESTART_RESET else changes
nothing, are log entry 14 (DEDUCED) and log entry 2. -/
def Obligations.ResetsKeepTheRetainedRecord : Prop :=
  (∀ s : State, s.mode.retained.recoveryCount ≤ 5 →
      (∃ t : State, exec .powerOn s = .next t ∧ AfterReset s t .powerOn) ∧
      (∃ t : State, exec .resetPin s = .next t ∧ AfterReset s t .resetPin) ∧
      ∀ cause, s.mode.restart = some cause → s.restartHeld cause = false →
        ∃ t : State, exec .restartReset s = .next t ∧ AfterReset s t cause) ∧
    (∀ s : State, s.mode.restart = none → exec .restartReset s = .next s) ∧
    (∀ (s : State) (cause : StartCause), s.mode.restart = some cause → s.restartHeld cause = true →
      exec .restartReset s = .next s)

/-! ## Frames -/

/-- R3, R6: a frame that fails its integrity test changes nothing, nor does one that completes on a segment
that is not UP. -/
def Obligations.DiscardedFramesChangeNothing : Prop :=
  (∀ (p : Port) (b : List Byte) (s : State), exec (.frameDiscarded p b) s = .next s) ∧
    ∀ (g : SegIx) (s : State), s.segState g ≠ .up → ∀ (a d : Byte) (k : FrameKind) (n : Fin 8) (v : Half)
      (q : Byte), exec (.sample g a n v q) s = .next s ∧ exec (.echo g a n v) s = .next s ∧
        exec (.foreignFrame (.segment g) k a d) s = .next s ∧
        exec (.misplacedStation g k a d) s = .next s

/-- R9, R11: a frame whose source is not listed on its segment is discarded with MISPLACED_STATION, and a
foreign one with FOREIGN_FRAME, each naming the port, the frame's kind and its source. -/
def Obligations.ForeignAndMisplacedFramesAreNotified : Prop :=
  (∀ (s : State) (k : FrameKind) (a d : Byte), a.toNat ≤ 121 → d.toNat ≤ 121 →
      isForeign .supervisor k a d = true →
      exec (.foreignFrame .supervisor k a d) s =
        .next (s.notify ⟨.foreignFrame, .port, 0, .frame k, a.toNat⟩)) ∧
    (∀ (s : State) (g : SegIx) (k : FrameKind) (a d : Byte), Listed s g a → d.toNat ≤ 121 →
      isForeign (.segment g) k a d = true →
      exec (.foreignFrame (.segment g) k a d) s =
        .next (s.notify ⟨.foreignFrame, .port, g.val + 1, .frame k, a.toNat⟩)) ∧
    ∀ (s : State) (g : SegIx) (k : FrameKind) (a d : Byte), s.segState g = .up → a.toNat ≤ 121 →
      d.toNat ≤ 121 → s.segOf a.toNat ≠ some g →
      exec (.misplacedStation g k a d) s =
        .next (s.notify ⟨.misplacedStation, .port, g.val + 1, .frame k, a.toNat⟩)

/-- R10 steps 1 to 3: the first check that fails decides, and the refusal is the only effect. -/
def Obligations.StationCommandChecksInOrder : Prop :=
  ∀ (s : State) (d : Byte) (n : Fin 8) (v : Half), d.isStation = true →
    let key := d.toNat * 8 + n.val
    (s.segOf d.toNat = none →
      exec (.stationCommand d n v) s =
        .next (s.notify ⟨.refused, .key, key, .unknownStation, v.toNat⟩)) ∧
    ∀ g : SegIx, s.segOf d.toNat = some g →
      (s.segState g ≠ .up ∧ s.segState g ≠ .lost →
        exec (.stationCommand d n v) s =
          .next (s.notify ⟨.refused, .key, key, .unreachable, v.toNat⟩)) ∧
      (s.segState g = .up ∨ s.segState g = .lost →
        16 ≤ (s.ports.segments.get g).forwarded.length →
        exec (.stationCommand d n v) s =
          .next (s.notify ⟨.refused, .key, key, .congested, v.toNat⟩))

/-- R10 step 4, R13, R14: a command for a PASS entry, or an unlisted one under policy PASS, or for a filter or
the backwash pump in COMMISSION, joins the tail of its segment's forwarded queue unchanged and changes nothing
else; a CLOSED entry, the policy REFUSE, and a filter or the backwash pump in another mode refuse it. -/
def Obligations.PassedCommandJoinsTheForwardedQueue : Prop :=
  ∀ (s : State) (d : Byte) (n : Fin 8) (v : Half) (g : SegIx), d.isStation = true →
    s.segOf d.toNat = some g → (s.segState g = .up ∨ s.segState g = .lost) →
    (s.ports.segments.get g).forwarded.length < 16 →
    let forwarded := s.updSegment g fun x =>
      { x with forwarded := x.forwarded ++ [⟨d.toNat, n.val, v.toNat⟩] }
    (s.lookupKey d.toNat n.val = none → s.tables.params.unlisted = .pass →
      exec (.stationCommand d n v) s = .next forwarded) ∧
    (s.lookupKey d.toNat n.val = none → s.tables.params.unlisted = .refuse →
      exec (.stationCommand d n v) s =
        .next (s.notify ⟨.refused, .key, d.toNat * 8 + n.val, .unlisted, v.toNat⟩)) ∧
    ∀ k, s.lookupKey d.toNat n.val = some k →
      let object := (s.tables.admission.get k).object
      (object = .pass → exec (.stationCommand d n v) s = .next forwarded) ∧
      (object = .closed → exec (.stationCommand d n v) s =
        .next (s.notify ⟨.refused, .entry, k.val, .closedEntry, v.toNat⟩)) ∧
      (object = .filterValves ∨ object = .backwashPump → s.modeNow = .commission →
        exec (.stationCommand d n v) s = .next forwarded) ∧
      (object = .filterValves ∨ object = .backwashPump → s.modeNow ≠ .commission →
        exec (.stationCommand d n v) s =
          .next (s.notify ⟨.refused, .entry, k.val, .owned, v.toNat⟩))

/-- R53, R55, R56, R57: a supervisor's rate for a line that passes the tests of R56. Above 0 and with no cause
it makes the line DOSING at the least of its terms, awaiting its echo; 0 stops it; a line that waits keeps
the request; the forwarded frame carries the admitted rate, a programme on the line ends, and no other line
changes. The tests refuse it in their order. -/
def Obligations.RateCommandIsTakenOrRefused : Prop :=
  ∀ (s : State) (d : Byte) (n : Fin 8) (v : Half) (g : SegIx) (k : Fin 48) (i : LineIx),
    d.isStation = true → s.segOf d.toNat = some g → (s.segState g = .up ∨ s.segState g = .lost) →
    (s.ports.segments.get g).forwarded.length < 16 → s.lookupKey d.toNat n.val = some k →
    (s.tables.admission.get k).object = .doseLine →
    (s.tables.admission.get k).objectIndex = i.val + 1 →
    let l := s.gate.get i
    let modeOk := s.modeNow = .supervised ∨ s.modeNow = .commission
    let open' := l.state = .stopped ∨ l.state = .dosing
    let waits := l.state = .inhibited ∨ l.state = .resuming
    let refused := fun c : Cause => exec (.stationCommand d n v) s =
      .next (s.notify ⟨.refused, .entry, k.val, c, v.toNat⟩)
    let takes := fun (x : LineState) (rate : Nat) => ∃ t : State,
      exec (.stationCommand d n v) s = .next t ∧
      (t.gate.get i).state = x ∧ (t.gate.get i).source = .supervisor ∧
      (t.gate.get i).requested = v.toNat ∧ (t.gate.get i).admitted = rate ∧
      (t.gate.get i).confirmation = .awaiting (some (s.tables.lines.get i).confirmLimit) ∧
      (t.ports.segments.get g).forwarded =
        (s.ports.segments.get g).forwarded ++ [⟨d.toNat, n.val, rate⟩] ∧
      (∀ j, j ≠ i → t.gate.get j = s.gate.get j ∧ t.pins.permits.get j = s.pins.permits.get j ∧
        t.runner.progs.get j = s.runner.progs.get j) ∧
      t.runner.progs.get i = none ∧
      t.pins.permits.get i = (decide (0 < rate)
        && !(s.flowClass (s.tables.lines.get i).circuit).starved && !s.pins.plantStop) ∧
      SameBlocks s t ∧ t.seq = s.seq ∧ t.arbiter = s.arbiter
    (modeOk → 0 < v.toNat → v.toNat ≤ 60000 → open' → l.causes = Causes.empty →
      s.otherDosing i = false → takes .dosing (rateFor s i v.toNat)) ∧
    (modeOk → v.toNat = 0 → open' → l.causes = Causes.empty → takes .stopped 0) ∧
    (modeOk → v.toNat ≤ 60000 → waits → l.causes.firstLatched = none →
      (v.toNat ≠ 0 → s.otherDosing i = false) →
      ∃ t : State, exec (.stationCommand d n v) s = .next t ∧
        t.gate.get i = { l with requested := v.toNat, source := .supervisor } ∧
        (∀ j, j ≠ i → t.gate.get j = s.gate.get j ∧ t.pins.permits.get j = s.pins.permits.get j ∧
          t.runner.progs.get j = s.runner.progs.get j) ∧
        t.runner.progs.get i = none ∧ t.ports.segments = s.ports.segments ∧
        SameBlocks s t ∧ t.seq = s.seq ∧ t.arbiter = s.arbiter) ∧
    (¬ modeOk → refused .mode) ∧
    (modeOk → 60000 < v.toNat → refused .badValue) ∧
    (modeOk → v.toNat ≤ 60000 → l.state = .disabled → refused .disabledLine) ∧
    (modeOk → v.toNat ≤ 60000 → l.state = .faulted → refused .faultedLine) ∧
    (modeOk → v.toNat ≤ 60000 → open' ∨ waits → ∀ c, l.causes.firstLatched = some c →
      refused c) ∧
    (modeOk → 0 < v.toNat → v.toNat ≤ 60000 → open' ∨ waits → l.causes.firstLatched = none →
      s.otherDosing i = true → refused .excluded)

/-- R71, R30: a stop of a circuit with no filter in BACKWASH makes its circulation STOPPED and adds CIRC_STOP to
each line of the circuit that is not DISABLED, which clears its request, its rate, its permit and its
programme, and sends its pump 0 if it was dosing (R54, R61); a run makes it RUN and removes CIRC_STOP, so
that a line under that cause alone is STOPPED; the frame joins the forwarded queue unchanged, and no other
circuit's lines are told. A stop during a backwash and any other value are refused. The Arbiter's judgement
follows (R106). -/
def Obligations.CirculationCommandStopsAndRuns : Prop :=
  ∀ (s : State) (d : Byte) (n : Fin 8) (v : Half) (g : SegIx) (k : Fin 48) (c : CircuitIx),
    d.isStation = true → s.segOf d.toNat = some g → (s.segState g = .up ∨ s.segState g = .lost) →
    (s.ports.segments.get g).forwarded.length < 16 → s.lookupKey d.toNat n.val = some k →
    (s.tables.admission.get k).object = .circPump →
    (s.tables.admission.get k).objectIndex = c.val + 1 →
    let others := fun t : State => ∀ i : LineIx, (s.tables.lines.get i).circuit ≠ c →
      (t.gate.get i).causes.circStop = (s.gate.get i).causes.circStop
    (v.toNat = 0 → s.backwashOn c = false → ∃ t : State, exec (.stationCommand d n v) s = .next t ∧
      (t.flow.circuits.get c).circulation = .stopped ∧
      (t.ports.segments.get g).forwarded =
        (s.ports.segments.get g).forwarded ++ [⟨d.toNat, n.val, 0⟩] ∧
      (∀ i : LineIx, (s.tables.lines.get i).circuit = c → (s.gate.get i).state ≠ .disabled →
        (t.gate.get i).causes.circStop = true ∧
        ((s.gate.get i).causes.circStop = false → AsksNothing t i ∧
          t.pins.permits.get i = false ∧
          (t.gate.get i).state =
            (if (s.gate.get i).state = .faulted then .faulted else .inhibited) ∧
          ((s.gate.get i).admitted ≠ 0 → Offers s t (s.lineEntry i) 0 21 ∧
            (t.gate.get i).confirmation =
              .awaiting (some (s.tables.lines.get i).confirmLimit)))) ∧
      others t) ∧
    (v.toNat = 0 → s.backwashOn c = true → exec (.stationCommand d n v) s =
      .next (s.notify ⟨.refused, .entry, k.val, .backwashActive, 0⟩)) ∧
    (v.toNat = 1 → ∃ t : State, exec (.stationCommand d n v) s = .next t ∧
      (t.flow.circuits.get c).circulation = .run ∧
      (t.ports.segments.get g).forwarded =
        (s.ports.segments.get g).forwarded ++ [⟨d.toNat, n.val, 1⟩] ∧
      (∀ i : LineIx, (s.tables.lines.get i).circuit = c → (s.gate.get i).state ≠ .disabled →
        (t.gate.get i).causes.circStop = false ∧
        ((s.gate.get i).causes.backwash = s.backwashCause i → LineFollows s t i) ∧
        ((s.gate.get i).state = .inhibited →
          (s.gate.get i).causes = { Causes.empty with circStop := true } →
          (s.gate.get i).requested = 0 → s.backwashCause i = false →
          (t.gate.get i).state = .stopped ∧ (t.gate.get i).causes = Causes.empty)) ∧
      others t) ∧
    (1 < v.toNat → exec (.stationCommand d n v) s =
      .next (s.notify ⟨.refused, .entry, k.val, .badValue, v.toNat⟩))

/-- R37, R38, R43: a sample of a listed station is applied to the slot its key maps to: GOOD in range makes it
VALID with its value and age 0, anything else FAULTY with the value kept; a substitute stands on; no other slot
changes. The change of a reading does what R35 has the reading blocks do: LIMIT (R65), DP and DP_URGENT (R97,
R98), the abort of a backwash in WASH by a tank level (R123). READING_FAULT is sent on entering FAULTY, and by
no sample to a FAULTY slot or under a substitute (R40). An unmapped sample changes no slot. The sample is
forwarded up, or dropped with SP_CONGESTED (R16). That the Arbiter's DP sources follow the reading also while
the filter is in BACKWASH is log entry 15 (DEDUCED). -/
def Obligations.SampleJudgesItsSlot : Prop :=
  ∀ (s : State) (g : SegIx) (a : Byte) (n : Fin 8) (v : Half) (q : Byte), Listed s g a →
    ∃ t : State, exec (.sample g a n v q) s = .next t ∧
      (s.ports.forwarded.length < 16 → t.ports.forwarded =
        s.ports.forwarded ++ [⟨0, a, .sample, n, bytesOf 2 v.toNat ++ [q]⟩]) ∧
      (16 ≤ s.ports.forwarded.length → t.ports.forwarded = s.ports.forwarded ∧
        t.mgmt.conditions.spCongested = true) ∧
      (s.lookupSlot a.toNat n.val = none → t.slots = s.slots ∧ t.gate = s.gate ∧
        t.arbiter = s.arbiter ∧ t.seq = s.seq ∧ t.ports.notices = s.ports.notices) ∧
      ∀ k, s.lookupSlot a.toNat n.val = some k →
        (∀ j, j ≠ k → t.slots.get j = s.slots.get j) ∧
        (t.slots.get k).sub = (s.slots.get k).sub ∧
        (q = 0 → (s.tables.slots.get k).minimum ≤ v.toNat → v.toNat ≤ (s.tables.slots.get k).maximum →
          (t.slots.get k).base = ⟨.valid, some ⟨v.toNat, 0⟩⟩) ∧
        (q = 0 → v.toNat < (s.tables.slots.get k).minimum ∨ (s.tables.slots.get k).maximum < v.toNat →
          (t.slots.get k).base = ⟨.faulty .range, (s.slots.get k).base.held⟩) ∧
        (q = 1 → (t.slots.get k).base = ⟨.faulty .cal, (s.slots.get k).base.held⟩) ∧
        (q ≠ 0 → q ≠ 1 → (t.slots.get k).base = ⟨.faulty .fault, (s.slots.get k).base.held⟩) ∧
        ReadingReported s t k ∧
        ((s.slots.get k).sub = none → (∀ x, (s.slots.get k).base.state ≠ .faulty x) →
          ∀ x, (t.slots.get k).base.state = .faulty x →
            Raised t ⟨.readingFault, .slot, k.val, x.cause, v.toNat⟩) ∧
        (((s.slots.get k).sub ≠ none ∨ ∃ x y, (s.slots.get k).base.state = .faulty x ∧
          (t.slots.get k).base.state = .faulty y) → t.ports.notices = s.ports.notices)

/-- R12, R72, R74: the echo of the awaited rate confirms a line. An echo of another value to an AWAITING line, an
equal one to a CONFIRMED line and any to a DISABLED or FAULTED line are recorded only. Another value to a
CONFIRMED line is a fault, ROGUE from 0, else MISMATCH: its permit off, both rates 0, source NONE, its pump
sent 0 and awaited with no timer, LINE_FAULT with the echoed value, no programme on it, and no other line
changed. -/
def Obligations.LineEchoConfirmsOrFaults : Prop :=
  ∀ (s : State) (i : LineIx) (v : Nat),
    let l := s.gate.get i
    let t := s.lineEcho i v
    let live := l.state ≠ .disabled ∧ l.state ≠ .faulted
    let recorded := t = s.putLine i { l with lastEcho := some v }
    (l.state = .disabled ∨ l.state = .faulted → recorded) ∧
    (∀ w, live → l.confirmation = .awaiting w → v = l.admitted →
      t = s.putLine i { l with lastEcho := some v, confirmation := .confirmed, confirmed := v }) ∧
    (∀ w, live → l.confirmation = .awaiting w → v ≠ l.admitted → recorded) ∧
    (live → l.confirmation = .confirmed → v = l.admitted → recorded) ∧
    (live → l.confirmation = .confirmed → v ≠ l.admitted →
      let reason : LineFault := if l.admitted = 0 then .rogue else .mismatch
      t.gate.get i = { l with
        state := .faulted, requested := 0, admitted := 0, source := .none, resume := 0
        fault := some reason, confirmation := .awaiting none, lastEcho := some v } ∧
      t.pins.permits.get i = false ∧ t.runner.progs.get i = none ∧
      OffersOnly s t (s.lineEntry i) 0 ∧
      Raised t ⟨.lineFault, .line, i.val + 1, reason.cause, v⟩ ∧
      (∀ j, j ≠ i → t.gate.get j = s.gate.get j ∧ t.pins.permits.get j = s.pins.permits.get j ∧
        t.runner.progs.get j = s.runner.progs.get j) ∧
      SameBlocks s t ∧ t.seq = s.seq ∧ t.arbiter = s.arbiter)

/-- R11, R12, R133: an echo of a listed station reaches the owner of the entry its key matches (what the owner
does is stated of `lineEcho`, `valveEcho` and `pumpEcho` in their own statements), the restore is judged
after it, and the frame is forwarded up, consumed or not. That the Arbiter selects (R106) after every echo,
consumed or not, is log entry 7 (DEDUCED). -/
def Obligations.EchoReachesItsOwner : Prop :=
  ∀ (s : State) (g : SegIx) (a : Byte) (n : Fin 8) (v : Half), Listed s g a →
    let done := fun t : State => Host.Outcome.next (φ := Fault) (ρ := Refusal)
      ((t.checkRestore.arbitrate).forwardUp ⟨0, a, .echo, n, bytesOf 2 v.toNat⟩)
    (s.lookupKey a.toNat n.val = none → exec (.echo g a n v) s = done s) ∧
    ∀ k, s.lookupKey a.toNat n.val = some k →
      (∀ i : LineIx, (s.tables.admission.get k).object = .doseLine →
        (s.tables.admission.get k).objectIndex = i.val + 1 →
        exec (.echo g a n v) s = done (s.lineEcho i v.toNat)) ∧
      (∀ f : FilterIx, (s.tables.admission.get k).object = .filterValves →
        (s.tables.admission.get k).objectIndex = f.val + 1 →
        exec (.echo g a n v) s = done (s.valveEcho f v.toNat)) ∧
      ((s.tables.admission.get k).object = .backwashPump →
        exec (.echo g a n v) s = done (s.pumpEcho v.toNat)) ∧
      ((s.tables.admission.get k).object = .circPump ∨ (s.tables.admission.get k).object = .pass ∨
        (s.tables.admission.get k).object = .closed → exec (.echo g a n v) s = done s)

/-- R115, R117-R122, R128, R108, R109: an echo of SERVICE ends a pending attempt with the filter IN_SERVICE; the
echo that a move awaits begins the next step: ISOLATE to SCOUR, or to WASH with no scour time, where the
tank levels are judged at once (R123); SCOUR, SETTLE and RINSE to their dwells; WASH to the pump's start, PB
by the plant stop input; RETURN to the end of the backwash, completed or aborted, with what the Arbiter does
at it. An echo of the pump's awaited state begins the dwell of WASH or SETTLE, and settles the pump's
restore object at 0 (R132). Each move's COMMAND is offered to the valves or the pump (R15, R117), and each
stage reported to the circuit's COAG lines, which hold BACKWASH from SCOUR to RINSE (R66). Any other echo is
recorded only; that this holds of an unassigned filter too is log entry 29. -/
def Obligations.ValveEchoMovesTheFilterOn : Prop :=
  (∀ (s : State) (f : FilterIx) (v : Nat),
    let t := s.valveEcho f v
    let c := s.tables.filters.get f
    (t.seq.filters.get f).lastEcho = some v ∧
    (s.backwashOf f = none → (s.seq.filters.get f).attempt.isSome = true → v = 1 →
      (t.seq.filters.get f).state = .inService ∧ (t.seq.filters.get f).attempt = none) ∧
    (s.backwashOf f = none → (s.seq.filters.get f).attempt = none ∨ v ≠ 1 →
      t = s.updFilter f fun q => { q with lastEcho := some v }) ∧
    (∀ b o n w, s.backwashOf f = some b → b.step = .move o w n → o = .pump ∨ v ≠ w →
      t = s.updFilter f fun q => { q with lastEcho := some v }) ∧
    (∀ b n, s.backwashOf f = some b → b.step = .dwell n →
      t = s.updFilter f fun q => { q with lastEcho := some v }) ∧
    ∀ b n, s.backwashOf f = some b → b.step = .move .valves v n →
      (b.stage = .isolate → 0 < c.scourTime → t.backwashOf f = some { b with
        stage := .scour, wetted := true, step := .move .valves 3 c.travelLimit } ∧
        Offers s t (s.valveEntry f) 3 1) ∧
      (b.stage = .isolate → c.scourTime = 0 → s.tankAbort = none → t.backwashOf f = some { b with
        stage := .wash, wetted := true, step := .move .valves 4 c.travelLimit } ∧
        Offers s t (s.valveEntry f) 4 1) ∧
      (∀ a, b.stage = .isolate → c.scourTime = 0 → s.tankAbort = some a → b.abort = none →
        t.backwashOf f = some { b with
          stage := .return, wetted := true, abort := some (a, .wash)
          step := .move .valves 1 c.travelLimit } ∧ Offers s t (s.valveEntry f) 1 1) ∧
      (b.stage = .scour → 0 < c.scourTime →
        t.backwashOf f = some { b with step := .dwell c.scourTime }) ∧
      (b.stage = .wash → t.pins.pb = !s.pins.plantStop ∧ t.seq.pumpRun = true ∧
        t.backwashOf f = some { b with step := .move .pump 1 c.travelLimit } ∧
        Offers s t s.pumpEntry 1 1) ∧
      (b.stage = .settle → 0 < c.settleTime →
        t.backwashOf f = some { b with step := .dwell c.settleTime }) ∧
      (b.stage = .settle → c.settleTime = 0 → t.backwashOf f = some { b with
        stage := .rinse, step := .move .valves 5 c.travelLimit } ∧
        Offers s t (s.valveEntry f) 5 1) ∧
      (b.stage = .rinse → 0 < c.rinseTime →
        t.backwashOf f = some { b with step := .dwell c.rinseTime }) ∧
      (b.stage = .return → b.abort = none → (t.seq.filters.get f).state = .inService ∧
        t.mode.retained.runHours.get f = ⟨0, 0⟩ ∧
        (t.arbiter.filters.get f).requests = ⟨false, false, false, false⟩ ∧
        (t.arbiter.filters.get f).check = some c.checkDelay ∧ t.arbiter.busy = none ∧
        (∀ g, (t.arbiter.filters.get g).rank = if g = f then 0
          else if (s.arbiter.filters.get g).rank < (s.arbiter.filters.get f).rank
            then (s.arbiter.filters.get g).rank + 1 else (s.arbiter.filters.get g).rank) ∧
        Raised t ⟨.backwashDone, .filter, f.val + 1, .completed, b.elapsed⟩) ∧
      (∀ a at', b.stage = .return → b.abort = some (a, at') →
        (t.seq.filters.get f).state = .inService ∧ t.mode.retained.runHours = s.mode.retained.runHours ∧
        t.arbiter.filters.get f = { s.arbiter.filters.get f with
          requests := { (s.arbiter.filters.get f).requests with manual := false }
          holdOff := some 600 } ∧
        (∀ g, g ≠ f → t.arbiter.filters.get g = s.arbiter.filters.get g) ∧ t.arbiter.busy = none ∧
        Raised t ⟨.backwashAborted, .filter, f.val + 1, a.cause, at'.number⟩) ∧
      (BackwashOk s → (b.stage = .scour → 0 < c.scourTime) →
        (b.stage = .isolate → c.scourTime = 0 → s.tankAbort = none) →
        StageReported s t c.circuit)) ∧
    ∀ (s : State) (v : Nat),
      let t := s.pumpEcho v
      t.seq.lastPumpEcho = some v ∧
      t.seq.restore.pumpSettled =
        (s.seq.restore.pumpSettled || (s.seq.restore.running && decide (v = 0))) ∧
      (∀ f : FilterIx, (∀ b n, s.backwashOf f = some b → b.step ≠ .move .pump v n) →
        t.seq.filters.get f = s.seq.filters.get f) ∧
      ∀ (f : FilterIx) (b : Backwash) (n : Nat), s.backwashOf f = some b → b.stage = .wash →
        b.step = .move .pump v n →
        (BackwashOk s → StageReported s t (s.tables.filters.get f).circuit) ∧
        (v = 1 → 0 < (s.tables.filters.get f).washTime → t.backwashOf f =
          some { b with step := .dwell (s.tables.filters.get f).washTime }) ∧
        (v ≠ 1 → t.backwashOf f = some { b with
          stage := .settle, step := .move .valves 2 (s.tables.filters.get f).travelLimit } ∧
          (BackwashOk s → Offers s t (s.valveEntry f) 2 1))

/-- R17, R161: a request that finds no free response place is discarded and sets RESPONSES_DROPPED; an unknown
code is answered BAD_ARG. A row whose condition does not stand changes nothing (log entry 2). -/
def Obligations.UnexecutedRequestsAreAnsweredOrDropped : Prop :=
  ∀ (s : State) (code tag : Byte),
    let dropped : State := { s with mgmt := { s.mgmt with
      conditions := { s.mgmt.conditions with responsesDropped := true } } }
    (8 ≤ s.placesTaken → exec (.requestDiscarded code tag) s = .next dropped) ∧
    (s.placesTaken < 8 → exec (.requestDiscarded code tag) s = .next s) ∧
    (code.toNat = 0 ∨ 29 < code.toNat → s.placesTaken < 8 →
      exec (.unknownRequestCode code tag) s = .next (s.respond ⟨code, tag, .badArg, []⟩)) ∧
    (code.toNat = 0 ∨ 29 < code.toNat → 8 ≤ s.placesTaken →
      exec (.unknownRequestCode code tag) s = .next dropped) ∧
    (1 ≤ code.toNat → code.toNat ≤ 29 → exec (.unknownRequestCode code tag) s = .next s)

/-- R6, R18: the supervisor port starts a response, then a notice, then a forwarded frame, and a segment port
that is UP an own frame, then a forwarded one; one that is not UP starts none. -/
def Obligations.TransmitterTakesTheNextFrame : Prop :=
  (∀ (s : State), ∃ t : State, exec (.transmitStart .supervisor) s = .next t ∧ SamePlant s t ∧
      (∀ r rs, s.ports.responses = r :: rs → t.ports = { s.ports with
        responses := rs, started := some r.frame }) ∧
      (∀ n ns, s.ports.responses = [] → s.ports.notices = n :: ns → t.ports = { s.ports with
        notices := ns, started := some n.frame }) ∧
      (∀ f fs, s.ports.responses = [] → s.ports.notices = [] → s.ports.forwarded = f :: fs →
        t.ports = { s.ports with forwarded := fs, started := some f })) ∧
    (∀ (s : State) (g : SegIx), ∃ t : State, exec (.transmitStart (.segment g)) s = .next t ∧ SamePlant s t ∧
      (s.segState g ≠ .up → t = s) ∧
      (s.segState g = .up → ∀ c cs, (s.ports.segments.get g).own = c :: cs →
        t.ports.segments.get g = { s.ports.segments.get g with
          own := cs, started := some (c.frame 121) }) ∧
      (s.segState g = .up → ∀ c cs, (s.ports.segments.get g).own = [] →
        (s.ports.segments.get g).forwarded = c :: cs →
        t.ports.segments.get g = { s.ports.segments.get g with
          forwarded := cs, started := some (c.frame 0) }) ∧
      ∀ h, h ≠ g → t.ports.segments.get h = s.ports.segments.get h)

/-! ## Segments -/

/-- The table of R4: the state a segment enters at each event, its forwarded queue kept or emptied; an event
that the table does not name for a state leaves everything as it is (log entry 2). R67, R124, R127, R130:
what a segment that becomes ISOLATED does to the lines and to the filter in BACKWASH, and that one that
becomes UP leaves its lines without UNREACHABLE. R52, R132: at its first time UP in the restore its own
queue holds the restore commands of its objects (their order: log entry 6) and nothing else, at a later time
none of them. -/
def Obligations.SegmentFollowsItsSignal : Prop :=
  ∀ (s : State) (g : SegIx),
    let enters := fun (c : Instr) (x : SegState) (queue : List Cmd) => ∃ t : State, exec c s = .next t ∧
      t.segState g = x ∧ (t.ports.segments.get g).forwarded = queue ∧
      ∀ h, h ≠ g → t.segState h = s.segState h
    let queue := (s.ports.segments.get g).forwarded
    (s.segState g = .up → enters (.signalLoss g) .lost queue) ∧
    (s.segState g = .lost → enters (.signalReturn g) .up queue) ∧
    (s.segState g = .lost → enters (.lossTimerExpiry g) .isolated []) ∧
    (∀ (c : Instr) (t : State),
      (c = .lossTimerExpiry g ∧ s.segState g = .lost) ∨
        (c = .signalLoss g ∧ s.segState g = .recovering) →
      exec c s = .next t → CutsOff s t g) ∧
    (s.segState g = .isolated → enters (.signalReturn g) .recovering queue) ∧
    (s.segState g = .recovering → enters (.signalLoss g) .isolated []) ∧
    (s.segState g = .recovering → enters (.recoveryTimerExpiry g) .up queue) ∧
    (∀ t : State, s.segState g = .recovering → exec (.recoveryTimerExpiry g) s = .next t →
      (∀ i : LineIx, s.segOfEntry (s.lineEntry i) = some g → (s.gate.get i).state ≠ .disabled →
        (s.gate.get i).causes.backwash = s.backwashCause i →
        (t.gate.get i).causes = { (s.gate.get i).causes with unreachable := false } ∧
          LineFollows s t i) ∧
      (s.seq.restore.running = true → s.modeNow = .startup → TablesOk s.tables → QueuesOk s →
        (∀ i : LineIx, (s.gate.get i).requested = 0 ∧ (s.gate.get i).admitted = 0) →
        t.seq.restore.seenUp.get g = true ∧ (t.ports.segments.get g).own =
          if s.seq.restore.seenUp.get g then [] else restoreCommands s g)) ∧
    (s.segState g ≠ .up → s.segState g ≠ .recovering → exec (.signalLoss g) s = .next s) ∧
    (s.segState g ≠ .lost → s.segState g ≠ .isolated → exec (.signalReturn g) s = .next s) ∧
    (s.segState g ≠ .lost → exec (.lossTimerExpiry g) s = .next s) ∧
    (s.segState g ≠ .recovering → exec (.recoveryTimerExpiry g) s = .next s)

/-- R5: ISOLATE_SEGMENT forces a segment, with what its cut-off does to the lines and to the filter in BACKWASH
(R67, R124, R127, R130); RESTORE_SEGMENT returns a FORCED one to RECOVERING and is BAD_ARG on any other. -/
def Obligations.SegmentIsForcedAndRestored : Prop :=
  ∀ (s : State) (tag x : Byte) (g : SegIx), Ready s → s.modeNow.loads = true →
    x.toNat = g.val + 1 →
    (∃ t : State, exec (.isolateSegment tag [x]) s = .next (t.respond ⟨26, tag, .done, []⟩) ∧
      t.segState g = .forced ∧ (s.segState g = .forced → t = s) ∧
      (s.segState g ≠ .forced → (t.ports.segments.get g).forwarded = [] ∧ CutsOff s t g)) ∧
    (s.segState g = .forced → ∃ t : State, exec (.restoreSegment tag [x]) s =
      .next (t.respond ⟨27, tag, .done, []⟩) ∧ t.segState g = .recovering) ∧
    (s.segState g ≠ .forced → exec (.restoreSegment tag [x]) s =
      .next (s.respond ⟨27, tag, .badArg, []⟩))

/-! ## Flow -/

/-- R19, R20, R28, R29: a pulse raises the input's window count up to 4095 and changes nothing else; and
STARVED_LONG is sent once in a starved period, when its timer has reached the limit. That it is sent whenever
its row comes with the timer there, where R29 compares at a second of the timer, is log entry 22. -/
def Obligations.PulsesCountAndLongStarvationIsReported : Prop :=
  (∀ (s : State) (i : InputIx), ∃ t : State, exec (.flowPulse i) s = .next t ∧
      (t.flow.inputs.get i).windowCount = min 4095 ((s.flow.inputs.get i).windowCount + 1) ∧
      (t.flow.inputs.get i).lastCount = (s.flow.inputs.get i).lastCount ∧
      (t.flow.inputs.get i).overrange = (s.flow.inputs.get i).overrange ∧
      (∀ j, j ≠ i → t.flow.inputs.get j = s.flow.inputs.get j) ∧
      t.ports = s.ports ∧ SamePlant s t) ∧
    (∀ (s : State) (c : CircuitIx), (s.tables.circuits.get c).enabled = true →
      (s.flowClass c).starved = true → (s.flow.circuits.get c).starvedReported = false →
      (s.tables.circuits.get c).starvedLimit ≤ (s.flow.circuits.get c).starvedTimer →
      ∃ t : State, exec (.starvedLong c) s = .next t ∧
        (t.flow.circuits.get c).starvedReported = true ∧
        (s.ports.notices.length < 32 → t.ports.notices = s.ports.notices ++
          [⟨.starvedLong, .circuit, c.val + 1, (s.flowClass c).cause,
            (s.flow.circuits.get c).starvedTimer⟩]) ∧
        t.gate = s.gate ∧ t.seq = s.seq ∧ t.arbiter = s.arbiter) ∧
    (∀ (s : State) (c : CircuitIx), (s.flow.circuits.get c).starvedReported = true →
      exec (.starvedLong c) s = .next s)

/-- R19, R20, R23-R26: at the end of a window the counts become last counts, an enabled circuit is judged by
the sum of its inputs (an overrange one adding 0) against its thresholds, falls at once and rises at the
second window; a disabled circuit is left out. R27, R64, R124: a change of class sends FLOW_CHANGE, adds FLOW to
the circuit's lines or takes it from them, with what that makes of a line (R54, R61, R62), and a starved class
aborts the circuit's backwash with STARVED; no line but a COAG line of another circuit changes. Before the
window's 2 s nothing changes (log entry 2). -/
def Obligations.WindowEndJudgesTheCircuits : Prop :=
  (∀ s : State, 2 ≤ s.flow.windowSeconds → ∃ t : State, exec .windowEnd s = .next t ∧
      t.flow.windowSeconds = 0 ∧
      (∀ i : InputIx, (t.flow.inputs.get i).windowCount = 0 ∧
        (t.flow.inputs.get i).lastCount = (s.flow.inputs.get i).windowCount ∧
        (t.flow.inputs.get i).overrange =
          decide (4095 ≤ (s.flow.inputs.get i).windowCount)) ∧
      (∀ c : CircuitIx, (s.tables.circuits.get c).enabled = false →
        t.flow.circuits.get c = s.flow.circuits.get c) ∧
      (∀ c : CircuitIx, t.flowClass c ≠ s.flowClass c →
        let starved := t.flowClass c = .low ∨ t.flowClass c = .none
        Raised t ⟨.flowChange, .circuit, c.val + 1, (t.flowClass c).cause,
          (t.flow.circuits.get c).flowSum⟩ ∧
        (∀ i : LineIx, (s.tables.lines.get i).circuit = c → (s.gate.get i).state ≠ .disabled →
          (s.gate.get i).causes.backwash = s.backwashCause i →
          let new := (t.gate.get i).causes
          new = { (s.gate.get i).causes with flow := new.flow, backwash := new.backwash } ∧
            (new.flow = true ↔ starved) ∧ LineFollows s t i) ∧
        (starved → BackwashOk s → ∀ (f : FilterIx) (b : Backwash), s.backwashOf f = some b →
          (s.tables.filters.get f).circuit = c →
          (b.stage = .return → t.backwashOf f = some b) ∧
          (b.stage ≠ .return → b.abort = none → AbortsToReturn s t f b .starved 21))) ∧
      (∀ i : LineIx, (s.tables.lines.get i).kind ≠ .coag →
        t.flowClass (s.tables.lines.get i).circuit = s.flowClass (s.tables.lines.get i).circuit →
        t.gate.get i = s.gate.get i) ∧
      ∀ c : CircuitIx, (s.tables.circuits.get c).enabled = true →
        let x := t.flow.circuits.get c
        let old := s.flow.circuits.get c
        let cfg := s.tables.circuits.get c
        x.flowSum = ((List.finRange 8).map fun i =>
          if s.tables.flowInputs.get i = some c ∧ (s.flow.inputs.get i).windowCount < 4095
          then (s.flow.inputs.get i).windowCount else 0).sum ∧
        (x.flowSum = 0 → x.measured = .none) ∧
        (0 < x.flowSum → cfg.fullThreshold ≤ x.flowSum → x.measured = .full) ∧
        (0 < x.flowSum → x.flowSum < cfg.fullThreshold → cfg.reducedThreshold ≤ x.flowSum →
          x.measured = .reduced) ∧
        (0 < x.flowSum → x.flowSum < cfg.fullThreshold → x.flowSum < cfg.reducedThreshold →
          x.measured = .low) ∧
        (x.measured.height ≤ old.flowClass.height →
          x.flowClass = x.measured ∧ x.rising = none) ∧
        (old.flowClass.height < x.measured.height → old.rising = none →
          x.flowClass = old.flowClass ∧ x.rising = some x.measured) ∧
        (∀ r, old.flowClass.height < x.measured.height → old.rising = some r →
          x.flowClass = (if r.height ≤ x.measured.height then r else x.measured) ∧
            x.rising = none) ∧
        x.circulation = old.circulation) ∧
    (∀ s : State, s.flow.windowSeconds < 2 → exec .windowEnd s = .next s)

/-! ## Readings -/

/-- R39, R40, R43, R44, R45: a VALID slot older than its limit becomes STALE with its value and age kept and
READING_FAULT sent, under a substitute silently; a substitute whose seconds have run out, or that is cleared,
ends with SUBSTITUTE_EXPIRED and leaves what the samples gave, with READING_FAULT where that is FAULTY or STALE;
no other slot changes. R35, R65, R97, R98, R123: what the loss or change of the reading does to LIMIT, to the DP
sources (log entry 15) and to a backwash in WASH. Within the limit
SLOT_STALE and UNDERLYING_STALE change nothing (log entry 2); beyond it they act whenever they are sent,
where R34 and R39 compare at a second of the timebase (log entry 22). -/
def Obligations.ReadingsAgeAndSubstitutesEnd : Prop :=
  (∀ (s : State) (k : SlotIx) (h : Held), (s.slots.get k).sub = none →
      (s.slots.get k).base = ⟨.valid, some h⟩ → (s.tables.slots.get k).staleLimit < h.age →
      ∃ t : State, exec (.slotStale k) s = .next t ∧ t.slots.get k = ⟨⟨.stale, some h⟩, none⟩ ∧
        Raised t ⟨.readingFault, .slot, k.val, .stale, h.age⟩ ∧ ReadingReported s t k ∧
        ∀ j, j ≠ k → t.slots.get j = s.slots.get j) ∧
    (∀ (s : State) (k : SlotIx) (h : Held) (u : Substitute),
      s.slots.get k = ⟨⟨.valid, some h⟩, some u⟩ → (s.tables.slots.get k).staleLimit < h.age →
      exec (.underlyingStale k) s =
        .next { s with slots := s.slots.set k ⟨⟨.stale, some h⟩, some u⟩ }) ∧
    (∀ (s : State) (k : SlotIx) (h : Held), (s.slots.get k).base = ⟨.valid, some h⟩ →
      h.age ≤ (s.tables.slots.get k).staleLimit →
      exec (.slotStale k) s = .next s ∧ exec (.underlyingStale k) s = .next s) ∧
    (∀ (s : State) (k : SlotIx) (v : Nat), (s.slots.get k).sub = some ⟨v, 0⟩ →
      ∃ t : State, exec (.substituteExpiry k) s = .next t ∧
        t.slots.get k = ⟨(s.slots.get k).base, none⟩ ∧
        Raised t ⟨.substituteExpired, .slot, k.val, .expired, v⟩ ∧
        FaultsNoticed t k (s.slots.get k).base ∧ ReadingReported s t k ∧
        ∀ j, j ≠ k → t.slots.get j = s.slots.get j) ∧
    (∀ (s : State) (tag x : Byte) (k : SlotIx) (u : Substitute), Ready s →
      s.modeNow = .supervised → x.toNat = k.val → k.val ≤ 11 → (s.slots.get k).sub = some u →
      ∃ t : State, exec (.clearSubstitute tag [x]) s = .next (t.respond ⟨15, tag, .done, []⟩) ∧
        t.slots.get k = ⟨(s.slots.get k).base, none⟩ ∧
        Raised t ⟨.substituteExpired, .slot, k.val, .cleared, u.value⟩ ∧
        FaultsNoticed t k (s.slots.get k).base ∧ ReadingReported s t k ∧
        ∀ j, j ≠ k → t.slots.get j = s.slots.get j)

/-- R42: SET_SUBSTITUTE in its ranges stands on the slot at once, for minutes × 60 s, with what the samples gave
kept beneath it; a value outside the plausible range, a slot above 11 and 0 or more than 240 minutes are
BAD_ARG. -/
def Obligations.SubstituteIsSet : Prop :=
  ∀ (s : State) (tag x v1 v0 m : Byte) (k : SlotIx), Ready s → s.modeNow = .supervised →
    x.toNat = k.val →
    let v := v1.toNat * 256 + v0.toNat
    let ok := k.val ≤ 11 ∧ (s.tables.slots.get k).minimum ≤ v ∧
      v ≤ (s.tables.slots.get k).maximum ∧ 1 ≤ m.toNat ∧ m.toNat ≤ 240
    (ok → ∃ t : State, exec (.setSubstitute tag [x, v1, v0, m]) s =
        .next (t.respond ⟨14, tag, .done, []⟩) ∧
      t.slots.get k = ⟨(s.slots.get k).base, some ⟨v, m.toNat * 60⟩⟩ ∧
      (∀ j, j ≠ k → t.slots.get j = s.slots.get j) ∧ t.seq = s.seq ∧ t.arbiter = s.arbiter) ∧
    (¬ ok → exec (.setSubstitute tag [x, v1, v0, m]) s =
      .next (s.respond ⟨14, tag, .badArg, []⟩))

/-! ## Lines and programmes -/

/-- R54, R60, R63: at the expiry of its resume timer a line with a request takes up DOSING at the least of its
terms, with its own frame, unless another line at its point doses, when it is dropped to STOPPED with
REFUSED(EXCLUDED); a line with no request enters STOPPED; neither offers a frame. A timer that has not run
out is no expiry (log entry 2). -/
def Obligations.ResumeTimerEnds : Prop :=
  ∀ (s : State) (i : LineIx),
    ((s.gate.get i).state = .resuming → (s.gate.get i).resume = 0 →
      (s.gate.get i).admitted = 0 →
      ∃ t : State, exec (.resumeTimerExpiry i) s = .next t ∧
        (0 < (s.gate.get i).requested → s.otherDosing i = false →
          (t.gate.get i).state = .dosing ∧ (t.gate.get i).requested = (s.gate.get i).requested ∧
            (t.gate.get i).source = (s.gate.get i).source ∧
            (t.gate.get i).admitted = (if (s.gate.get i).causes.any then 0
              else rateFor s i (s.gate.get i).requested) ∧
            ((t.gate.get i).admitted = 0 → OffersNone s t) ∧
            ((t.gate.get i).admitted ≠ 0 →
              OffersOnly s t (s.lineEntry i) (t.gate.get i).admitted ∧
              (t.gate.get i).confirmation =
                .awaiting (some (s.tables.lines.get i).confirmLimit))) ∧
        (0 < (s.gate.get i).requested → s.otherDosing i = true →
          (t.gate.get i).state = .stopped ∧ (t.gate.get i).requested = 0 ∧
            (t.gate.get i).source = .none ∧ t.runner.progs.get i = none ∧ OffersNone s t ∧
            Raised t ⟨.refused, .line, i.val + 1, .excluded, (s.gate.get i).requested⟩) ∧
        ((s.gate.get i).requested = 0 → (t.gate.get i).state = .stopped ∧ OffersNone s t) ∧
        ∀ j, j ≠ i → t.gate.get j = s.gate.get j ∧ t.pins.permits.get j = s.pins.permits.get j) ∧
    ((s.gate.get i).state ≠ .resuming ∨ (s.gate.get i).resume ≠ 0 →
      exec (.resumeTimerExpiry i) s = .next s)

/-- R73, R74: the confirm timer's expiry faults the line NO_ECHO: its permit off, both rates 0, source NONE, its
pump sent 0, LINE_FAULT with the rate that was awaited, no programme on it, and no other line or permit
changed. -/
def Obligations.UnconfirmedLineFaults : Prop :=
  ∀ (s : State) (i : LineIx), (s.gate.get i).confirmation = .awaiting (some 0) →
    (s.gate.get i).state ≠ .disabled → (s.gate.get i).state ≠ .faulted →
    s.seq.restore.running = false →
    ∃ t : State, exec (.confirmTimerExpiry i) s = .next t ∧
      (t.gate.get i).state = .faulted ∧ (t.gate.get i).fault = some .noEcho ∧
      (t.gate.get i).requested = 0 ∧ (t.gate.get i).admitted = 0 ∧
      (t.gate.get i).source = .none ∧ (t.gate.get i).confirmation = .awaiting none ∧
      (t.gate.get i).causes = (s.gate.get i).causes ∧ t.pins.permits.get i = false ∧
      t.runner.progs.get i = none ∧ OffersOnly s t (s.lineEntry i) 0 ∧
      Raised t ⟨.lineFault, .line, i.val + 1, .noEcho, (s.gate.get i).admitted⟩ ∧
      (∀ j, j ≠ i → t.gate.get j = s.gate.get j ∧ t.pins.permits.get j = s.pins.permits.get j ∧
        t.runner.progs.get j = s.runner.progs.get j) ∧
      t.tables = s.tables ∧ t.flow = s.flow ∧ t.slots = s.slots ∧ t.seq = s.seq ∧
      t.arbiter = s.arbiter ∧ t.mode = s.mode ∧ t.clock = s.clock

/-- R76: CLEAR_FAULT of a FAULTED line leaves it STOPPED, or INHIBITED under a cause, with rates 0, its pump
sent 0 and the echo of 0 awaited; any other line is NO_ENTRY. -/
def Obligations.ClearedLineIsStopped : Prop :=
  ∀ (s : State) (tag x : Byte) (i : LineIx), Ready s → s.modeNow.loads = true →
    x.toNat = i.val + 1 →
    ((s.gate.get i).state = .faulted →
      ∃ t : State, exec (.clearFaultLine tag [5, x]) s = .next (t.respond ⟨23, tag, .done, []⟩) ∧
        (t.gate.get i).state = (if (s.gate.get i).causes.any then .inhibited else .stopped) ∧
        (t.gate.get i).fault = none ∧ (t.gate.get i).requested = 0 ∧
        (t.gate.get i).admitted = 0 ∧ (t.gate.get i).source = .none ∧
        (t.gate.get i).confirmation = .awaiting (some (s.tables.lines.get i).confirmLimit) ∧
        OffersOnly s t (s.lineEntry i) 0 ∧ ∀ j, j ≠ i → t.gate.get j = s.gate.get j) ∧
    ((s.gate.get i).state ≠ .faulted → exec (.clearFaultLine tag [5, x]) s =
      .next (s.respond ⟨23, tag, .noEntry, []⟩))

/-- R81, R83, R84, R85: the end of a RATE step, of a BATCH step at its cap, after its BATCH_SHORT notice, and of
one whose volume the second's addition reaches: the next step, the first again of a looping A or B, or the
end of the programme. A step that begins sets the programme state (position, seconds, batch) and submits its
rate, which the line takes at its least term, with CLAMPED where that is less, or keeps while it waits; a
changed rate, and the 0 of a release, is the one own frame offered (R54); a refusal, and the last step, end
the programme with PROGRAMME_END and the line's release. That BATCH_SHORT joins the notice queue before
CLAMPED and PROGRAMME_END is log entry 6, and that each TOTALISER_ADDITION sent is one second's addition log
entry 22. A step with time left does not end, and a row with no programme changes nothing (log entry 2). -/
def Obligations.ProgrammeStepEnds : Prop :=
  (∀ (s : State) (i : LineIx) (p : Prog) (first count : Nat), s.runner.progs.get i = some p →
      (s.tables.lines.get i).range p.which = ⟨some first, some count⟩ → p.remaining = 0 →
      (s.stepOf i p).kind = .rate →
      ∃ t : State, exec (.programmeStepEnd i) s = .next t ∧ StepEnds s t i p first count []) ∧
    (∀ (s : State) (i : LineIx) (p : Prog) (b : Batch) (v first count : Nat),
      s.runner.progs.get i = some p → (s.tables.lines.get i).range p.which = ⟨some first, some count⟩ →
      p.batch = some b → p.remaining = 0 → (s.stepOf i p).kind = .batch →
      (s.stepOf i p).volume = some v → b.ml < v →
      ∃ t : State, exec (.batchCap i) s = .next t ∧
        StepEnds s t i p first count [⟨.batchShort, .line, i.val + 1, .cap, b.ml⟩]) ∧
    (∀ (s : State) (i : LineIx) (p : Prog) (b : Batch) (v first count : Nat),
      s.runner.progs.get i = some p → (s.tables.lines.get i).range p.which = ⟨some first, some count⟩ →
      p.batch = some b → (s.stepOf i p).kind = .batch → (s.stepOf i p).volume = some v →
      s.pins.permits.get i = true →
      let units := b.fraction + (s.gate.get i).confirmed
      (v ≤ b.ml + units / 3600 → ∃ t : State, exec (.totaliserAddition i) s = .next t ∧
        StepEnds s t i p first count []) ∧
      (b.ml + units / 3600 < v → ∃ t : State, exec (.totaliserAddition i) s = .next t ∧
        t.runner.progs.get i = some { p with batch := some ⟨b.ml + units / 3600, units % 3600⟩ } ∧
        t.gate = s.gate ∧ t.ports = s.ports)) ∧
    (∀ (s : State) (i : LineIx) (p : Prog), s.runner.progs.get i = some p → p.remaining ≠ 0 →
      exec (.programmeStepEnd i) s = .next s ∧ exec (.batchCap i) s = .next s) ∧
    (∀ (s : State) (i : LineIx), s.runner.progs.get i = none →
      exec (.programmeStepEnd i) s = .next s ∧ exec (.batchCap i) s = .next s)

/-- R58, R81, R89, R90: an accepted START_PROGRAMME runs the first step of the range with the line's request at
its rate and source PROGRAMME, offering the changed rate to its pump (R54); a refused one leaves the line as
it was; STOP_PROGRAMME ends the programme with no notice and releases the line, whose pump is sent 0. -/
def Obligations.ShockProgrammeStartsAndStops : Prop :=
  ∀ (s : State) (tag x : Byte) (i : LineIx), Ready s → s.modeNow = .supervised →
    x.toNat = i.val + 1 →
    (∀ (choice : Byte) (w : Which) (first count : Nat),
      (choice = 0 ∧ w = .shockA) ∨ (choice = 1 ∧ w = .shockB) →
      (s.tables.lines.get i).enabled = true →
      (s.tables.lines.get i).range w = ⟨some first, some count⟩ → s.shockActive i = false →
      let r := s.stepAt first
      (s.lineTest i r.rate true = none →
        ∃ (t : State) (p : Prog) (data : List Byte), exec (.startProgramme tag [x, choice]) s =
            .next (t.respond ⟨16, tag, .done, data⟩) ∧
          t.runner.progs.get i = some p ∧ p.which = w ∧ p.position = 0 ∧
          p.remaining = r.duration * 60 ∧
          (t.gate.get i).requested = r.rate ∧ (t.gate.get i).source = .programme ∧
          StepBegins s t i w first 0 [] ∧
          (∀ j, j ≠ i → t.gate.get j = s.gate.get j ∧
            t.runner.progs.get j = s.runner.progs.get j)) ∧
      (∀ c, s.lineTest i r.rate true = some c →
        exec (.startProgramme tag [x, choice]) s =
          .next (s.respond ⟨16, tag, .denied, bytesOf 1 c.code⟩))) ∧
    (∀ p, s.runner.progs.get i = some p →
      ∃ t : State, exec (.stopProgramme tag [x]) s = .next (t.respond ⟨17, tag, .done, []⟩) ∧
        t.runner.progs.get i = none ∧ t.ports.notices = s.ports.notices ∧
        ((s.gate.get i).source = .programme →
          (t.gate.get i).requested = 0 ∧ (t.gate.get i).source = .none) ∧
        ((s.gate.get i).source ≠ .programme → t.gate = s.gate) ∧ StopsPump s t i ∧
        ∀ j, j ≠ i → t.gate.get j = s.gate.get j) ∧
    (s.runner.progs.get i = none → exec (.stopProgramme tag [x]) s =
      .next (s.respond ⟨17, tag, .noEntry, []⟩))

/-- R92, R93: SNAPSHOT latches each listed line that holds no unread latch and keeps the others; READ_SNAPSHOT
answers the latch, or the live fields where there is none, releases it and, with clear, zeroes the total. That
the clear byte is 0 for no and 1 for yes is log entry 11 (PRESUMED). -/
def Obligations.SnapshotsLatchAndRelease : Prop :=
  (∀ (s : State) (tag h l : Byte), Ready s →
      let set := h.toNat * 256 + l.toNat
      0 < set → set < 4096 →
      ∃ (t : State) (data : List Byte),
        exec (.snapshot tag [h, l]) s = .next (t.respond ⟨24, tag, .done, data⟩) ∧
        (∀ i : LineIx, t.runner.latches.get i =
          if set.testBit i.val = true ∧ s.runner.latches.get i = none
          then some ⟨(s.runner.totals.get i).ml, (s.gate.get i).state, (s.gate.get i).admitted,
            (s.gate.get i).confirmed, (s.gate.get i).source⟩
          else s.runner.latches.get i) ∧
        t.runner.totals = s.runner.totals ∧ SamePlant s t) ∧
    (∀ (s : State) (tag x : Byte) (i : LineIx), Ready s → x.toNat = i.val + 1 →
      let data := match s.runner.latches.get i with
        | some l => l.bytes true
        | none => (s.liveLatch i).bytes false
      (∃ t : State,
        exec (.readSnapshot tag [x, 0]) s = .next (t.respond ⟨25, tag, .done, data⟩) ∧
        t.runner.latches.get i = none ∧ t.runner.totals = s.runner.totals ∧ SamePlant s t) ∧
      (s.modeNow.loads = true →
        ∃ t : State,
          exec (.readSnapshot tag [x, 1]) s = .next (t.respond ⟨25, tag, .done, data⟩) ∧
          t.runner.latches.get i = none ∧ t.runner.totals.get i = ⟨0, 0⟩ ∧
          (∀ j, j ≠ i → t.runner.totals.get j = s.runner.totals.get j) ∧ SamePlant s t))

/-! ## Filters -/

/-- R96, R103: a second of run time of an IN_SERVICE filter with flow is added to its run hours, whose whole
hours stop at 65535, and a hold-off that has run out becomes none. R99: at a change of the whole hours HOURS
is present exactly while the hours limit is not 0 and reached, and the other sources stay. That each
RUN_HOURS_COUNT sent is one second is log entry 22, and that either row out of its moment changes nothing
log entry 2. -/
def Obligations.RunHoursCountAndHoldOffEnds : Prop :=
  (∀ (s : State) (f : FilterIx), (s.seq.filters.get f).state = .inService →
      s.flowClass (s.tables.filters.get f).circuit ≠ .none →
      let r := s.mode.retained.runHours.get f
      ∃ t : State, exec (.runHoursCount f) s = .next t ∧
        (r.seconds + 1 < 3600 → t.mode.retained.runHours.get f = ⟨r.hours, r.seconds + 1⟩) ∧
        (r.seconds + 1 = 3600 → t.mode.retained.runHours.get f = ⟨min 65535 (r.hours + 1), 0⟩) ∧
        (r.seconds + 1 < 3600 ∨ r.hours = 65535 → t.arbiter = s.arbiter) ∧
        (r.seconds + 1 = 3600 → r.hours < 65535 → (s.tables.filters.get f).assigned = true →
          let old := (s.arbiter.filters.get f).requests
          let new := (t.arbiter.filters.get f).requests
          let limit := (s.tables.filters.get f).hoursLimit
          (new.hours = true ↔ limit ≠ 0 ∧ limit ≤ r.hours + 1) ∧ new.manual = old.manual ∧
            ((s.arbiter.filters.get f).check = none →
              new.dp = old.dp ∧ new.dpUrgent = old.dpUrgent)) ∧
        ∀ g, g ≠ f → t.mode.retained.runHours.get g = s.mode.retained.runHours.get g) ∧
    (∀ (s : State) (f : FilterIx), (s.seq.filters.get f).state ≠ .inService ∨
      s.flowClass (s.tables.filters.get f).circuit = .none →
      exec (.runHoursCount f) s = .next s) ∧
    (∀ (s : State) (f : FilterIx), (s.arbiter.filters.get f).holdOff = some 0 →
      ∃ t : State, exec (.holdOffExpiry f) s = .next t ∧ (t.arbiter.filters.get f).holdOff = none ∧
        ∀ g, (t.arbiter.filters.get g).rank = (s.arbiter.filters.get g).rank) ∧
    (∀ (s : State) (f : FilterIx), (s.arbiter.filters.get f).holdOff ≠ some 0 →
      exec (.holdOffExpiry f) s = .next s)

/-- R111: the verdict of a check: a pressure below the limit clears the ineffective count, a high one makes it 1
and then 2 with DP ignored; none is taken while DP is ignored; the check is then none. R98: with the suppression
ended DP and DP_URGENT, absent under it, are added by a reading at or above their limits; with DP ignored both
stay absent. -/
def Obligations.CheckTakesItsVerdict : Prop :=
  ∀ (s : State) (f : FilterIx), (s.arbiter.filters.get f).check = some 0 →
    ∃ t : State, exec (.checkExpiry f) s = .next t ∧ (t.arbiter.filters.get f).check = none ∧
      ((s.arbiter.filters.get f).dpIgnored = true →
        (t.arbiter.filters.get f).dpIgnored = true ∧
          (t.arbiter.filters.get f).ineffective = (s.arbiter.filters.get f).ineffective) ∧
      ((s.arbiter.filters.get f).dpIgnored = false → s.pressureHigh f = false →
        (t.arbiter.filters.get f).dpIgnored = false ∧ (t.arbiter.filters.get f).ineffective = 0) ∧
      ((s.arbiter.filters.get f).dpIgnored = false → s.pressureHigh f = true →
        (s.arbiter.filters.get f).ineffective = 0 →
        (t.arbiter.filters.get f).dpIgnored = false ∧ (t.arbiter.filters.get f).ineffective = 1) ∧
      ((s.arbiter.filters.get f).dpIgnored = false → s.pressureHigh f = true →
        (s.arbiter.filters.get f).ineffective = 1 →
        (t.arbiter.filters.get f).dpIgnored = true ∧ (t.arbiter.filters.get f).ineffective = 2) ∧
      let r := (t.arbiter.filters.get f).requests
      ((t.arbiter.filters.get f).dpIgnored = true → r.dp = false ∧ r.dpUrgent = false) ∧
        ((t.arbiter.filters.get f).dpIgnored = false → (s.tables.filters.get f).assigned = true →
          (s.arbiter.filters.get f).requests.dp = false →
          (s.arbiter.filters.get f).requests.dpUrgent = false →
          (r.dp = true ↔ ∃ v, s.reading (dpSlot f) = some v ∧
            (s.tables.filters.get f).dpLimit ≤ v) ∧
          (r.dpUrgent = true ↔ ∃ v, s.reading (dpSlot f) = some v ∧
            (s.tables.filters.get f).dpUrgentLimit ≤ v))

/-- R115: a service attempt that runs out leaves the filter FAULTED with NO_RETURN; the
restore limit faults every filter that is not settled with NO_RETURN and every line that is not settled with
NO_ECHO, reports a pump that is not, ends the restore and takes the mode out of STARTUP (R133, R138). That
either row changes nothing out of its moment is log entry 2, and that an attempt does not expire by itself
while the restore runs log entry 20. -/
def Obligations.AttemptsAndTheRestoreRunOut : Prop :=
  (∀ (s : State) (f : FilterIx), (s.seq.filters.get f).attempt = some 0 →
      s.seq.restore.running = false →
      ∃ t : State, exec (.serviceAttemptExpiry f) s = .next t ∧
        (t.seq.filters.get f).state = .faulted .noReturn ∧ (t.seq.filters.get f).attempt = none ∧
        Raised t ⟨.filterFault, .filter, f.val + 1, .noReturn, 0⟩) ∧
    (∀ (s : State) (f : FilterIx), (s.seq.filters.get f).attempt ≠ some 0 ∨
      s.seq.restore.running = true → exec (.serviceAttemptExpiry f) s = .next s) ∧
    (∀ s : State, s.seq.restore.running = true → s.seq.restore.remaining = 0 →
      ∃ t : State, exec .restoreLimit s = .next t ∧ t.seq.restore.running = false ∧
        t.modeNow ≠ .startup ∧
        (∀ f : FilterIx, (s.tables.filters.get f).assigned = true →
          (s.seq.filters.get f).attempt.isSome = true →
          (t.seq.filters.get f).state = .faulted .noReturn ∧ (t.seq.filters.get f).attempt = none ∧
          Raised t ⟨.filterFault, .filter, f.val + 1, .noReturn, 0⟩) ∧
        (∀ f : FilterIx, (s.seq.filters.get f).attempt = none → s.backwashOf f = none →
          t.seq.filters.get f = s.seq.filters.get f) ∧
        (∀ i : LineIx, (s.gate.get i).state ≠ .disabled → (s.gate.get i).state ≠ .faulted →
          (s.gate.get i).confirmation ≠ .confirmed →
          (t.gate.get i).state = .faulted ∧ (t.gate.get i).fault = some .noEcho ∧ AsksNothing t i ∧
          t.pins.permits.get i = false ∧
          Raised t ⟨.lineFault, .line, i.val + 1, .noEcho, (s.gate.get i).admitted⟩) ∧
        ∀ k, s.seq.restore.pumpSettled = false → s.pumpEntry = some k →
          Raised t ⟨.pumpUnconfirmed, .entry, k.val, .noEcho, 0⟩) ∧
    (∀ s : State, s.seq.restore.running = false ∨ s.seq.restore.remaining ≠ 0 →
      exec .restoreLimit s = .next s)

/-- R138: the start-up decision, in the order of its table. R133: it is taken in the event in which the last
object of the restore settles, and not before. -/
def Obligations.StartUpDecisionTakesTheFirstTest : Prop :=
  ∀ s : State,
    let r := s.mode.retained
    let settled := (∀ f : FilterIx, (s.tables.filters.get f).assigned = true →
        (s.seq.filters.get f).attempt = none) ∧
      (∀ i : LineIx, (s.gate.get i).state = .disabled ∨ (s.gate.get i).state = .faulted ∨
        (s.gate.get i).confirmation = .confirmed) ∧
      s.seq.restore.pumpSettled = true
    (s.seq.restore.running = true → settled → s.checkRestore = ({ s with seq := { s.seq with
      restore := { s.seq.restore with running := false } } } : State).startUpDecision) ∧
    (s.seq.restore.running = false ∨ ¬ settled → s.checkRestore = s) ∧
    (r.lockoutFlag = true → s.startUpDecision.modeNow = .lockout) ∧
    (r.lockoutFlag = false → s.tables.params.recoveryLimit < r.recoveryCount →
      s.startUpDecision.modeNow = .lockout ∧ s.startUpDecision.pins.lockout = true ∧
      s.startUpDecision.mode.retained.lockoutCause = some .recoveryLimit) ∧
    (r.lockoutFlag = false → r.recoveryCount ≤ s.tables.params.recoveryLimit →
      r.commissioned = false ∨ s.pins.keyswitch = true →
      s.startUpDecision.modeNow = .commission) ∧
    (r.lockoutFlag = false → r.recoveryCount ≤ s.tables.params.recoveryLimit →
      r.commissioned = true → s.pins.keyswitch = false → s.startUpDecision.modeNow = .hold)

/-- R125, R127, R129: a move that is not confirmed in time aborts the backwash with NO_ECHO, which goes to
RETURN with the pump stopped and sent STOP, the valves sent to SERVICE, and a bed wetted and not rinsed
marked unrinsed; the COAG lines of the circuit are told (R66). In RETURN it faults the filter NO_RETURN. -/
def Obligations.TravelTimerEndsAMove : Prop :=
  ∀ (s : State) (f : FilterIx) (b : Backwash) (o : MoveObject) (w : Nat),
    s.backwashOf f = some b → b.step = .move o w 0 →
    (b.stage ≠ .return → b.abort = none → s.arbiter.busy = some f → BackwashOk s →
      ∃ t : State, exec (.travelTimerExpiry f) s = .next t ∧ AbortsToReturn s t f b .noEcho 2 ∧
        StageReported s t (s.tables.filters.get f).circuit) ∧
    (b.stage = .return → ∃ t : State, exec (.travelTimerExpiry f) s = .next t ∧
      (t.seq.filters.get f).state = .faulted .noReturn ∧
      (t.arbiter.filters.get f).requests.manual = false ∧
      Raised t ⟨.filterFault, .filter, f.val + 1, .noReturn, 6⟩)

/-- R119, R121, R126: the dwell of SCOUR leads to WASH, where the tank levels may abort it at once (R123), that
of WASH stops the pump with PB off, that of SETTLE leads to RINSE, that of RINSE to RETURN with the bed
rinsed. Each move's COMMAND is offered to the valves or the pump (R15, R117), and each stage reported to the
circuit's COAG lines (R66). -/
def Obligations.DwellEndsBeginTheNextStep : Prop :=
  ∀ (s : State) (f : FilterIx) (b : Backwash), s.backwashOf f = some b → b.step = .dwell 0 →
    let reports := fun t : State =>
      BackwashOk s → StageReported s t (s.tables.filters.get f).circuit
    (b.stage = .wash → ∃ t : State, exec (.dwellEnd f) s = .next t ∧ t.pins.pb = false ∧
      t.seq.pumpRun = false ∧ t.backwashOf f =
        some { b with step := .move .pump 0 (s.tables.filters.get f).travelLimit } ∧
      Offers s t s.pumpEntry 0 1 ∧ reports t) ∧
    (b.stage = .settle → ∃ t : State, exec (.dwellEnd f) s = .next t ∧ t.backwashOf f =
      some { b with stage := .rinse, step := .move .valves 5 (s.tables.filters.get f).travelLimit } ∧
      Offers s t (s.valveEntry f) 5 1 ∧ reports t) ∧
    (b.stage = .rinse → ∃ t : State, exec (.dwellEnd f) s = .next t ∧ t.backwashOf f =
      some { b with
        stage := .return, rinsed := true
        step := .move .valves 1 (s.tables.filters.get f).travelLimit } ∧
      (t.seq.filters.get f).unrinsed = false ∧ Offers s t (s.valveEntry f) 1 1 ∧ reports t) ∧
    (b.stage = .scour → s.tankAbort = none → ∃ t : State, exec (.dwellEnd f) s = .next t ∧
      t.backwashOf f = some { b with
        stage := .wash, wetted := true
        step := .move .valves 4 (s.tables.filters.get f).travelLimit } ∧
      Offers s t (s.valveEntry f) 4 1 ∧ reports t) ∧
    (∀ a, b.stage = .scour → s.tankAbort = some a → b.abort = none →
      ∃ t : State, exec (.dwellEnd f) s = .next t ∧ t.backwashOf f = some { b with
        stage := .return, wetted := true, abort := some (a, .wash)
        step := .move .valves 1 (s.tables.filters.get f).travelLimit } ∧
      Offers s t (s.valveEntry f) 1 1)

/-- R100-R102, R112, R131: the requests on a filter: MANUAL added or withdrawn, an abort with its cause, the
mask set and cleared, a FAULTED filter sent for SERVICE again, and the DP ignored flag cleared. The COMMANDs
of the abort and of the new attempt are offered to the valves and the pump (R15, R125, R131). The Arbiter's
judgement follows (R106). -/
def Obligations.FilterRequestsTakeEffect : Prop :=
  ∀ (s : State) (tag x : Byte) (f : FilterIx), Ready s → s.modeNow.loads = true →
    x.toNat = f.val + 1 →
    ((s.tables.filters.get f).assigned = true → (∀ r, (s.seq.filters.get f).state ≠ .faulted r) →
      s.backwashOf f = none →
      ∃ t : State, exec (.backwashNow tag [x]) s = .next (t.respond ⟨18, tag, .done, []⟩) ∧
        (t.arbiter.filters.get f).requests.manual = true) ∧
    (s.backwashOf f = none → (s.arbiter.filters.get f).requests.manual = true →
      ∃ t : State, exec (.abortBackwash tag [x]) s = .next (t.respond ⟨19, tag, .done, []⟩) ∧
        (t.arbiter.filters.get f).requests.manual = false) ∧
    (∀ b, s.backwashOf f = some b → b.abort = none → b.stage ≠ .return →
      ∃ (t : State) (b' : Backwash), exec (.abortBackwash tag [x]) s = .next (t.respond ⟨19, tag, .done, []⟩) ∧
        t.backwashOf f = some b' ∧ b'.abort = some (.supervisorAbort, b.stage) ∧
        b'.stage = (if b.stage = .wash ∨ b.stage = .settle then .rinse else .return) ∧
        Offers s t (s.valveEntry f) (if b.stage = .wash ∨ b.stage = .settle then 5 else 1) 2 ∧
        (s.seq.pumpRun = true → Offers s t s.pumpEntry 0 1 ∧ t.seq.pumpRun = false ∧
          t.pins.pb = false)) ∧
    (∃ t : State, exec (.maskFilter tag [x]) s = .next (t.respond ⟨20, tag, .done, []⟩) ∧
      (t.arbiter.filters.get f).masked = true ∧ t.eligible f = false) ∧
    (∃ t : State, exec (.unmaskFilter tag [x]) s = .next (t.respond ⟨21, tag, .done, []⟩) ∧
      (t.arbiter.filters.get f).masked = false) ∧
    (∀ r, (s.seq.filters.get f).state = .faulted r →
      ∃ t : State, exec (.clearFaultFilter tag [9, x]) s = .next (t.respond ⟨23, tag, .done, []⟩) ∧
        (t.seq.filters.get f).state = .faulted r ∧
        (t.seq.filters.get f).attempt = some (s.tables.filters.get f).travelLimit ∧
        Offers s t (s.valveEntry f) 1 1 ∧ (t.arbiter.filters.get f).dpIgnored = false ∧
        (t.arbiter.filters.get f).ineffective = 0) ∧
    ((∀ r, (s.seq.filters.get f).state ≠ .faulted r) → (s.arbiter.filters.get f).dpIgnored = true →
      ∃ t : State, exec (.clearFaultFilter tag [9, x]) s = .next (t.respond ⟨23, tag, .done, []⟩) ∧
        (t.arbiter.filters.get f).dpIgnored = false ∧ (t.arbiter.filters.get f).ineffective = 0)

/-- R110: SET_LOWEST sends the named filter to rank 0 and raises by 1 every filter that stood below it; nothing
else changes, and no selection is made; an index outside 1 to 8 is BAD_ARG, a mode that does not accept it
BAD_MODE. -/
def Obligations.SetLowestRotatesTheRanks : Prop :=
  (∀ (s : State) (tag x : Byte) (f : FilterIx), Ready s → s.modeNow.loads = true →
      x.toNat = f.val + 1 →
      ∃ t : State, exec (.setLowest tag [x]) s = .next (t.respond ⟨22, tag, .done, []⟩) ∧
        (∀ g, t.arbiter.filters.get g = { s.arbiter.filters.get g with
          rank := if g = f then 0
            else if (s.arbiter.filters.get g).rank < (s.arbiter.filters.get f).rank
              then (s.arbiter.filters.get g).rank + 1 else (s.arbiter.filters.get g).rank }) ∧
        t = { s with arbiter := t.arbiter } ∧ t.arbiter.busy = s.arbiter.busy ∧
        (RanksOk s → (s.arbiter.filters.get f).rank = 0 → t = s)) ∧
    (∀ (s : State) (tag x : Byte), Ready s → s.modeNow.loads = true →
      x.toNat = 0 ∨ 8 < x.toNat →
      exec (.setLowest tag [x]) s = .next (s.respond ⟨22, tag, .badArg, []⟩)) ∧
    (∀ (s : State) (tag : Byte) (args : List Byte), Ready s → s.modeNow.loads = false →
      exec (.setLowest tag args) s = .next (s.respond ⟨22, tag, .badMode, []⟩)) ∧
    (∀ (s t : State) (tag tag' x : Byte) (f : FilterIx), RanksOk s → x.toNat = f.val + 1 → Ready s →
      s.modeNow.loads = true → exec (.setLowest tag [x]) s = .next t → Ready t →
      ∃ u, exec (.setLowest tag' [x]) t = .next u ∧ u.arbiter = t.arbiter)

/-! ## Mode and time -/

/-- R145-R148: a liveness period that ends with the late flag clear sets it; one that ends with it set takes the
part to FALLBACK, or to LOCKOUT where the raised recovery count exceeds its limit; the return timer's end
clears the return count; the fallback limit leads to LOCKOUT. R59, R86: on the entry to FALLBACK an enabled
line with a range for its circuit's OPEN flag starts that programme at its first step, and one with none is
asked for nothing. In another mode the three rows change nothing (log entry 2). -/
def Obligations.ModeTimersEnd : Prop :=
  (∀ (s : State) (l : Liveness), s.mode.state = .supervised l → l.period ≤ l.elapsed →
      (l.late = false → ∃ t : State, exec .livenessPeriodEnd s = .next t ∧
        t.mode.state = .supervised ⟨l.period, 0, true⟩ ∧
        t.mgmt.conditions.livenessLate = true ∧ t.gate = s.gate ∧ t.seq = s.seq) ∧
      (l.late = true → s.mode.retained.recoveryCount < s.tables.params.recoveryLimit →
        s.mode.retained.recoveryCount < 5 →
        ∃ t : State, exec .livenessPeriodEnd s = .next t ∧
          t.mode.state = .fallback ⟨0, s.tables.params.fallbackLimit, 0, none, l.period⟩ ∧
          t.mode.retained.recoveryCount = s.mode.retained.recoveryCount + 1 ∧
          ∀ i : LineIx, (s.tables.lines.get i).enabled = true →
            let w := if s.clock.openFlags.get (s.tables.lines.get i).circuit then Which.a else .b
            (∀ first count, (s.tables.lines.get i).range w = ⟨some first, some count⟩ →
              TakesProgramme s i (s.stepAt first).rate → RunsFromFirst t i w first) ∧
            (((s.tables.lines.get i).range w).first = none → AsksNothing t i)) ∧
      (l.late = true → s.tables.params.recoveryLimit ≤ s.mode.retained.recoveryCount →
        s.mode.retained.recoveryCount < 5 →
        ∃ t : State, exec .livenessPeriodEnd s = .next t ∧ t.modeNow = .lockout ∧
          t.pins.lockout = true ∧ t.mode.retained.lockoutCause = some .recoveryLimit)) ∧
    (∀ (s : State) (f : Fallback), s.mode.state = .fallback f → f.returnTimer = some 0 →
      exec .returnTimerExpiry s = .next { s with mode := { s.mode with
        state := .fallback { f with returnCount := 0, returnTimer := none } } }) ∧
    (∀ (s : State) (f : Fallback), s.mode.state = .fallback f → f.limitHours * 3600 ≤ f.timer →
      ∃ t : State, exec .fallbackLimit s = .next t ∧ t.modeNow = .lockout ∧ t.pins.lockout = true ∧
        t.mode.retained.lockoutFlag = true ∧
        t.mode.retained.lockoutCause = some .fallbackTooLong ∧
        ∀ i : LineIx, t.pins.permits.get i = false) ∧
    (∀ s : State, s.modeNow ≠ .supervised → exec .livenessPeriodEnd s = .next s) ∧
    (∀ s : State, s.modeNow ≠ .fallback →
      exec .returnTimerExpiry s = .next s ∧ exec .fallbackLimit s = .next s)

/-- R145, R147: a REFRESH in SUPERVISED is valid once the late flag is set or half the period has passed, and
restarts the period; an earlier one is DENIED and takes the part out of SUPERVISED; in FALLBACK the third in
a run returns it to SUPERVISED with a fresh liveness, every programme stops with no notice, and a line keeps
its state, its request and its rate, which is now the supervisor's (R59, R88). R144: a SET_FIELD of the
liveness period in SUPERVISED is answered BAD_MODE, leaves the tables as they are and takes the part out of
SUPERVISED; the arguments by which it is known are log entry 23. -/
def Obligations.RefreshIsJudged : Prop :=
  (∀ (s : State) (tag : Byte) (l : Liveness), Ready s → s.mode.state = .supervised l →
      (l.late = true ∨ l.period ≤ 2 * l.elapsed →
        exec (.refresh tag []) s = .next (({ s with mode := { s.mode with
          state := .supervised ⟨l.period, 0, false⟩ } } : State).respond ⟨1, tag, .done, []⟩)) ∧
      (l.late = false → 2 * l.elapsed < l.period →
        ∃ t : State, exec (.refresh tag []) s = .next (t.respond ⟨1, tag, .denied, []⟩) ∧
          (t.modeNow = .fallback ∨ t.modeNow = .lockout))) ∧
    (∀ (s : State) (tag : Byte) (f : Fallback), Ready s → s.mode.state = .fallback f →
      (f.returnCount < 2 → exec (.refresh tag []) s = .next (({ s with mode := { s.mode with
        state := .fallback { f with
          returnCount := f.returnCount + 1, returnTimer := some f.period } } } : State).respond
            ⟨1, tag, .done, bytesOf 1 (f.returnCount + 1)⟩)) ∧
      (f.returnCount = 2 → ∃ t : State, exec (.refresh tag []) s =
          .next (t.respond ⟨1, tag, .done, [3]⟩) ∧
        t.mode.state = .supervised ⟨s.tables.params.livenessPeriod, 0, false⟩ ∧
        t.mode.retained.recoveryCount = s.mode.retained.recoveryCount ∧
        ((∀ i : LineIx, Settled s i) → ∀ n : Notice, n.kind = .programmeEnd →
          n ∈ t.ports.notices → n ∈ s.ports.notices) ∧
        ∀ i : LineIx, t.runner.progs.get i = none ∧ (Settled s i →
          (t.gate.get i).state = (s.gate.get i).state ∧
            (t.gate.get i).requested = (s.gate.get i).requested ∧
            (t.gate.get i).admitted = (s.gate.get i).admitted ∧
            (t.gate.get i).source = if (s.gate.get i).source = .programme then .supervisor
              else (s.gate.get i).source))) ∧
    (∀ (s : State) (tag v3 v2 v1 v0 : Byte), s.placesTaken < 8 → s.modeNow = .supervised →
      ∃ t : State, exec (.setField tag [9, 0, 1, v3, v2, v1, v0]) s =
          .next (t.respond ⟨10, tag, .badMode, []⟩) ∧
        (t.modeNow = .fallback ∨ t.modeNow = .lockout) ∧ t.tables = s.tables)

/-- R139, R140, R143, R149, R151: the requests that change the mode or its record, in the modes that accept
them. R69, R85: on the entry to HOLD and to LOCKOUT every programme stops, and a line that is not DISABLED
takes the cause and is asked for nothing. -/
def Obligations.ModeRequestsTakeEffect : Prop :=
  ∀ (s : State) (tag : Byte), Ready s →
    (s.modeNow = .hold → ∃ t : State, exec (.enterSupervised tag []) s =
        .next (t.respond ⟨2, tag, .done, []⟩) ∧
      t.mode.state = .supervised ⟨s.tables.params.livenessPeriod, 0, false⟩ ∧
      t.mode.retained.recoveryCount = s.mode.retained.recoveryCount) ∧
    (s.modeNow = .supervised ∨ s.modeNow = .fallback → ∃ t : State, exec (.enterHold tag []) s =
        .next (t.respond ⟨3, tag, .done, []⟩) ∧ t.mode.state = .hold ∧
      t.mode.retained.recoveryCount = s.mode.retained.recoveryCount ∧
      (∀ k : SlotIx, (t.slots.get k).sub = none) ∧
      ∀ i : LineIx, t.runner.progs.get i = none ∧ ((s.gate.get i).state ≠ .disabled →
        (t.gate.get i).causes.hold = true ∧
          ((s.gate.get i).causes.hold = false → AsksNothing t i))) ∧
    (s.modeNow ≠ .startup → s.modeNow ≠ .lockout → ∃ t : State, exec (.lock tag []) s =
        .next (t.respond ⟨4, tag, .done, []⟩) ∧ t.mode.state = .lockout ∧
      t.pins.lockout = true ∧ t.mode.retained.lockoutFlag = true ∧
      t.mode.retained.lockoutCause = some .requested ∧
      ∀ i : LineIx, t.runner.progs.get i = none ∧ t.pins.permits.get i = false ∧
        ((s.gate.get i).state ≠ .disabled → (t.gate.get i).causes.lockout = true ∧
          ((s.gate.get i).causes.lockout = false → AsksNothing t i))) ∧
    (s.modeNow = .lockout → s.pins.keyswitch = true → ∃ t : State, exec (.release tag []) s =
        .next (t.respond ⟨5, tag, .done, []⟩) ∧ t.mode.state = .hold ∧
      t.pins.lockout = false ∧ t.mode.retained.lockoutFlag = false ∧
      t.mode.retained.recoveryCount = 0 ∧
      t.mode.retained.lockoutCause = s.mode.retained.lockoutCause) ∧
    (s.modeNow = .lockout → s.pins.keyswitch = false → exec (.release tag []) s =
      .next (s.respond ⟨5, tag, .denied, []⟩)) ∧
    (s.modeNow ≠ .startup → s.mgmt.write = none → exec (.restart tag []) s =
      .next (({ s with mode := { s.mode with restart := some .restartRequest } } : State).respond
        ⟨7, tag, .done, []⟩)) ∧
    (s.modeNow ≠ .startup → s.mgmt.write ≠ none → exec (.restart tag []) s =
      .next (s.respond ⟨7, tag, .busy, []⟩)) ∧
    (s.modeNow = .supervised → exec (.clearRecoveryCount tag []) s =
      .next (({ s with mode := { s.mode with retained := { s.mode.retained with
        recoveryCount := 0 } } } : State).respond ⟨8, tag, .done, []⟩))

/-- R154, R159: at a minute change the minute of the week rises by 1 and wraps, with second 0, and every OPEN
and WASH_WINDOW flag is as evaluated at the new time. R87: in FALLBACK an enabled line whose circuit's OPEN
flag changed starts the programme of the new flag, or stops its programme and is released where it has none;
a HYPO or ACID line whose flag did not change, or that has neither range, is as it was (a COAG line is told
of a grant that a WASH_WINDOW flag brings, R66). A row sent at second 59 acts at once, before the next
second of the timebase too (log entry 22); at another second than 59 the row changes nothing (log entry 2).
-/
def Obligations.MinuteChangeAdvancesTheWeek : Prop :=
  (∀ s : State, s.clock.second = 59 → s.clock.day ≤ 6 → s.clock.minute ≤ 1439 →
      ∃ t : State, exec .minuteChange s = .next t ∧ t.clock.second = 0 ∧ t.clock.minute ≤ 1439 ∧
        t.clock.day ≤ 6 ∧ t.clock.valid = s.clock.valid ∧
        t.clock.day * 1440 + t.clock.minute =
          (s.clock.day * 1440 + s.clock.minute + 1) % 10080 ∧
        (∀ c : CircuitIx, t.clock.openFlags.get c = t.openDue c ∧
          t.clock.washFlags.get c = t.washDue c) ∧
        ∀ i : LineIx,
          let cfg := s.tables.lines.get i
          let w := if t.clock.openFlags.get cfg.circuit then Which.a else .b
          let changed := t.clock.openFlags.get cfg.circuit ≠ s.clock.openFlags.get cfg.circuit
          (s.modeNow = .fallback → changed → cfg.enabled = true →
            (∀ first count, cfg.range w = ⟨some first, some count⟩ →
              TakesProgramme s i (s.stepAt first).rate → (s.gate.get i).causes.hold = false →
              (s.gate.get i).causes.lockout = false → RunsFromFirst t i w first) ∧
            ((cfg.range w).first = none →
              (cfg.range .a).steps.isSome = true ∨ (cfg.range .b).steps.isSome = true →
              t.runner.progs.get i = none ∧
                ((s.gate.get i).source = .programme → AsksNothing t i))) ∧
          (s.modeNow ≠ .fallback ∨ ¬ changed ∨ cfg.enabled = false ∨
              ((cfg.range .a).first = none ∧ (cfg.range .b).first = none) →
            cfg.kind ≠ .coag → t.gate.get i = s.gate.get i ∧
              t.runner.progs.get i = s.runner.progs.get i)) ∧
    (∀ s : State, s.clock.second ≠ 59 → exec .minuteChange s = .next s)

/-- R158, R159: an enabled entry covers a circuit when the circuit and the day are in its sets and the minute is
from its start to below its end; with a valid clock a circuit's flag is set while some enabled entry of the
flag's kind covers it; with an invalid clock OPEN is set and WASH_WINDOW clear. -/
def Obligations.TimetableCoversFromStartToBelowEnd : Prop :=
  (∀ (e : TimeEntry) (k : EntryKind) (c : CircuitIx) (day minute : Nat),
      e.covers k c day minute = true ↔
        e.enabled = true ∧ e.kind = k ∧ e.circuits.getLsbD c.val = true ∧
          e.days.getLsbD day = true ∧ e.startMinute ≤ minute ∧ minute < e.endMinute) ∧
    (∀ (s : State) (c : CircuitIx), s.clock.valid = true →
      (s.openDue c = true ↔ ∃ n, (s.tables.timetable.get n).covers .openHours c s.clock.day
        s.clock.minute = true) ∧
      (s.washDue c = true ↔ ∃ n, (s.tables.timetable.get n).covers .washWindow c s.clock.day
        s.clock.minute = true)) ∧
    (∀ (s : State) (c : CircuitIx), s.clock.valid = false →
      s.openDue c = true ∧ s.washDue c = false)

/-- R156: SET_CLOCK is BAD_MODE in STARTUP and BAD_ARG outside its ranges, changing nothing; otherwise the three
fields take its values, the clock is valid, the flags are as evaluated, and it is answered DONE. -/
def Obligations.SetClockSetsTheTime : Prop :=
  ∀ (s : State) (tag d m1 m0 x : Byte), Ready s →
    let minute := m1.toNat * 256 + m0.toNat
    (s.modeNow = .startup → exec (.setClock tag [d, m1, m0, x]) s =
      .next (s.respond ⟨9, tag, .badMode, []⟩)) ∧
    (s.modeNow ≠ .startup → 6 < d.toNat ∨ 1439 < minute ∨ 59 < x.toNat →
      exec (.setClock tag [d, m1, m0, x]) s = .next (s.respond ⟨9, tag, .badArg, []⟩)) ∧
    (s.modeNow ≠ .startup → d.toNat ≤ 6 → minute ≤ 1439 → x.toNat ≤ 59 →
      ∃ t : State, exec (.setClock tag [d, m1, m0, x]) s = .next (t.respond ⟨9, tag, .done, []⟩) ∧
        t.clock.day = d.toNat ∧ t.clock.minute = minute ∧ t.clock.second = x.toNat ∧
        t.clock.valid = true ∧
        ∀ c : CircuitIx, t.clock.openFlags.get c = t.openDue c ∧
          t.clock.washFlags.get c = t.washDue c)

/-! ## Management -/

/-- R17, R143, R153, R161, R162: a request that finds no free place is discarded; one its mode does not accept
is BAD_MODE, one that meets a pending restart BUSY, a SET_FIELD that meets a write of the store BUSY, and
one whose arguments have a wrong length or lie outside its ranges BAD_ARG; the first check that fails
decides, and but for the answer nothing changes. The SET_FIELD of the liveness period in SUPERVISED is the
exception of R144 (log entry 23); which READ_SNAPSHOT is one with clear, and that its clear byte is 0 or 1,
is log entries 11 and 27; that either CLEAR_FAULT row takes a line or a filter is log entry 18. -/
def Obligations.RequestChecksComeInOrder : Prop :=
  ∀ (c : Instr) (s : State) (r : Request) (tag : Byte) (args : List Byte),
    requestOf c = some (r, tag, args) →
    ¬ (r = .setField ∧ s.modeNow = .supervised ∧ isPeriodWrite args = true) →
    (8 ≤ s.placesTaken → exec c s = .next { s with mgmt := { s.mgmt with
      conditions := { s.mgmt.conditions with responsesDropped := true } } }) ∧
    (s.placesTaken < 8 → accepts (asksClear args) r s.modeNow = false →
      exec c s = .next (s.respond ⟨r.byte, tag, .badMode, []⟩)) ∧
    (s.placesTaken < 8 → accepts (asksClear args) r s.modeNow = true →
      (s.mode.restart ≠ none → exec c s = .next (s.respond ⟨r.byte, tag, .busy, []⟩)) ∧
      (s.mode.restart = none → r = .setField → s.mgmt.write ≠ none →
        exec c s = .next (s.respond ⟨r.byte, tag, .busy, []⟩)) ∧
      (s.mode.restart = none → (r = .setField → s.mgmt.write = none) →
        argumentsOk s r args = false →
        exec c s = .next (s.respond ⟨r.byte, tag, .badArg, []⟩)))

/-- R162, R164, R168: a SET_FIELD answered DONE leaves the field with the value written, as GET_FIELD reads it,
and no write is made while the store is written; one that enables a line sends its pump 0, and one that
assigns a filter starts its service attempt with SERVICE to its valves (R51, R114), where the 1 that is
written for yes is log entry 11 (PRESUMED); CLEAR_CONDITIONS clears the five latched flags; READ_CONDITIONS,
GET_FIELD and GET_STATE answer their data and change nothing but the queue. The layout of the items of
GET_STATE is log entry 12, and the units of a segment's timer among them log entry 4. -/
def Obligations.FieldsAndConditionsAreReadAndWritten : Prop :=
  (∀ (s : State) (r : FieldRef) (v : Nat), (s.writeField r v).2 = .done →
      (s.writeField r v).1.tables.readField r = v) ∧
    (∀ (s : State) (r : FieldRef) (v : Nat), (s.writeField r v).2 ≠ .done →
      (s.writeField r v).1 = s) ∧
    (∀ (s : State) (i : LineIx), (s.writeField (.line i 0) 1).2 = .done →
      (s.tables.lines.get i).enabled = false →
      let t := (s.writeField (.line i 0) 1).1
      let l := t.gate.get i
      l.state = (if l.causes.any then .inhibited else .stopped) ∧ l.requested = 0 ∧
        l.admitted = 0 ∧ l.source = .none ∧ l.confirmed = 0 ∧ l.fault = none ∧ l.lastEcho = none ∧
        l.confirmation = .awaiting (some (s.tables.lines.get i).confirmLimit) ∧
        OffersOnly s t (s.lineEntry i) 0 ∧ ∀ j, j ≠ i → t.gate.get j = s.gate.get j) ∧
    (∀ (s : State) (f : FilterIx), (s.writeField (.filter f 0) 1).2 = .done →
      (s.tables.filters.get f).assigned = false → (s.seq.filters.get f).state = .unused →
      let t := (s.writeField (.filter f 0) 1).1
      (t.seq.filters.get f).state = .unused ∧
        (t.seq.filters.get f).attempt = some (s.tables.filters.get f).travelLimit ∧
        Offers s t (s.valveEntry f) 1 1) ∧
    (∀ (s : State) (n : Fin 8) (v : Nat) (p : Params), s.tables.params.put n v = some p →
      p.valid s.mode.retained.recoveryCount n = true →
      (s.writeField (.param n) v).2 = .done ∧
        (s.writeField (.param n) v).1.tables = { s.tables with params := p }) ∧
    (∀ (s : State) (tag t i f v3 v2 v1 v0 : Byte) (r : FieldRef), Ready s → s.modeNow.loads = true →
      isPeriodWrite [t, i, f, v3, v2, v1, v0] = false ∨ s.modeNow ≠ .supervised →
      FieldRef.of t.toNat i.toNat f.toNat = some r →
      let v := ((v3.toNat * 256 + v2.toNat) * 256 + v1.toNat) * 256 + v0.toNat
      (s.mgmt.write = none → exec (.setField tag [t, i, f, v3, v2, v1, v0]) s =
        .next ((s.writeField r v).1.respond ⟨10, tag, (s.writeField r v).2, []⟩)) ∧
      (s.mgmt.write ≠ none → exec (.setField tag [t, i, f, v3, v2, v1, v0]) s =
        .next (s.respond ⟨10, tag, .busy, []⟩))) ∧
    (∀ (s : State) (tag t i f : Byte) (r : FieldRef), Ready s →
      FieldRef.of t.toNat i.toNat f.toNat = some r →
      exec (.getField tag [t, i, f]) s =
        .next (s.respond ⟨11, tag, .done, bytesOf 4 (s.tables.readField r)⟩)) ∧
    (∀ (s : State) (tag k i n : Byte) (items : List (List Byte)) (data : List Byte), Ready s →
      s.stateItems k.toNat i.toNat = some items → itemData items n.toNat = some data →
      exec (.getState tag [k, i, n]) s =
        .next (s.respond ⟨12, tag, .done, data⟩)) ∧
    (∀ (s : State) (tag : Byte), Ready s → exec (.readConditions tag []) s =
      .next (s.respond ⟨28, tag, .done, bytesOf 1 s.conditionByte⟩)) ∧
    (∀ (s : State) (tag : Byte), Ready s → s.modeNow.loads = true →
      exec (.clearConditions tag []) s = .next (({ s with mgmt := { s.mgmt with
        conditions := ⟨false, false, false, false, false⟩ } } : State).respond
          ⟨29, tag, .done, []⟩))

/-- R142, R166: STORE_SETTINGS and COMMIT_COMMISSIONING begin a write that marks the store invalid and copies
the tables, with no response yet, and are BUSY while one is in flight; its end marks the store valid and
answers DONE, and a commissioning sets the flag and leaves a restart pending. That a write may end at any
moment the sender names within its 4 s is log entry 5, and that a write's end with no such write in flight
changes nothing log entry 2. -/
def Obligations.SettingsAreWrittenAndAnswered : Prop :=
  (∀ (s : State) (tag : Byte), Ready s →
      let begun := fun commit : Bool => ({ s with mgmt := { s.mgmt with
        store := ⟨false, s.tables⟩, write := some ⟨commit, tag, 4⟩ } } : State)
      (s.modeNow.loads = true → s.mgmt.write = none →
        exec (.storeSettings tag []) s = .next (begun false)) ∧
      (s.modeNow.loads = true → s.mgmt.write ≠ none →
        exec (.storeSettings tag []) s = .next (s.respond ⟨13, tag, .busy, []⟩)) ∧
      (s.modeNow = .commission → s.mgmt.write = none →
        exec (.commitCommissioning tag []) s = .next (begun true)) ∧
      (s.modeNow = .commission → s.mgmt.write ≠ none →
        exec (.commitCommissioning tag []) s = .next (s.respond ⟨6, tag, .busy, []⟩))) ∧
    (∀ (s : State) (tag : Byte) (n : Nat), s.mgmt.write = some ⟨false, tag, n⟩ →
      ∃ t : State, exec .settingsWriteEnd s = .next t ∧ t.mgmt.store = ⟨true, s.mgmt.store.tables⟩ ∧
        t.mgmt.write = none ∧ t.mgmt.conditions.settingsInvalid = false ∧
        t.ports.responses = s.ports.responses ++ [⟨13, tag, .done, []⟩] ∧ t.mode = s.mode) ∧
    (∀ (s : State) (tag : Byte) (n : Nat), s.mgmt.write = some ⟨true, tag, n⟩ →
      ∃ t : State, exec .commitWriteEnd s = .next t ∧ t.mgmt.store = ⟨true, s.mgmt.store.tables⟩ ∧
        t.mgmt.write = none ∧ t.mgmt.conditions.settingsInvalid = false ∧
        t.ports.responses = s.ports.responses ++ [⟨6, tag, .done, []⟩] ∧
        t.mode.retained.commissioned = true ∧ t.mode.restart = some .commit) ∧
    (∀ s : State, s.mgmt.write = none →
      exec .settingsWriteEnd s = .next s ∧ exec .commitWriteEnd s = .next s)

/-! ## Hardwired inputs -/

/-- R55, R68, R120, R124, R152: the assertion of the plant stop input turns every permit and PB off, adds
PLANT_STOP to every line that is not DISABLED and clears their requests, sends 0 to the pump of each line
that was admitted a rate, and aborts a backwash, one in RETURN apart, with UNRINSED where R127 says so, the
pump sent STOP and the valves SERVICE; its release removes it, with what that makes of a line (R62); the
keyswitch's change is the input alone. A repeated assertion or release changes nothing (log entry 2). -/
def Obligations.HardwiredInputsAct : Prop :=
  (∀ s : State, s.pins.plantStop = false → PermitsOk s → BackwashOk s →
      ∃ t : State, exec .plantStopAsserted s = .next t ∧ t.pins.plantStop = true ∧ t.pins.pb = false ∧
        (∀ i : LineIx, t.pins.permits.get i = false) ∧
        (∀ i : LineIx, (s.gate.get i).state ≠ .disabled → (s.gate.get i).causes.plantStop = false →
          (t.gate.get i).causes.plantStop = true ∧ AsksNothing t i ∧
            (t.gate.get i).state =
              (if (s.gate.get i).state = .faulted then .faulted else .inhibited) ∧
            ((s.gate.get i).admitted ≠ 0 → Offers s t (s.lineEntry i) 0 21)) ∧
        (∀ (f : FilterIx) (b : Backwash), s.backwashOf f = some b →
          (b.stage = .return → t.backwashOf f = some b) ∧
          (b.stage ≠ .return → b.abort = none → AbortsToReturn s t f b .plantStop 21) ∧
          (∀ at', b.stage = .rinse → b.abort = some (.supervisorAbort, at') →
            t.backwashOf f = some { b with
              stage := .return, step := .move .valves 1 (s.tables.filters.get f).travelLimit } ∧
              Offers s t (s.valveEntry f) 1 21)) ∧
        t.mode = s.mode) ∧
    (∀ s : State, s.pins.plantStop = true → ∃ t : State, exec .plantStopReleased s = .next t ∧
      t.pins.plantStop = false ∧ t.pins.pb = s.pins.pb ∧
      (∀ i : LineIx, (s.gate.get i).state ≠ .disabled → (t.gate.get i).causes.plantStop = false ∧
        ((s.gate.get i).causes.backwash = s.backwashCause i → LineFollows s t i)) ∧
      t.mode = s.mode) ∧
    (∀ s : State, s.pins.plantStop = true → exec .plantStopAsserted s = .next s) ∧
    (∀ s : State, s.pins.plantStop = false → exec .plantStopReleased s = .next s) ∧
    (∀ (s : State) (on : Bool), exec (.keyswitchChange on) s =
      .next { s with pins := { s.pins with keyswitch := on } })
end

