-- ==== Sys2Proof/Laws/Table.lean ====
section
/-!
SUPPORT. The laws of fixed-size tables: what each cell is after a write, and that tables with equal cells
are equal.
-/

namespace Sys2Proof.Table

variable {n : Nat} {α β : Type}

@[ext] theorem ext_get {t u : Table n α} (h : ∀ i, t.get i = u.get i) : t = u := by
  obtain ⟨l, hl⟩ := t
  obtain ⟨m, hm⟩ := u
  have e : l = m := by
    refine List.ext_getElem (hl.trans hm.symm) fun i h1 h2 => ?_
    have := h ⟨i, hl ▸ h1⟩
    simpa [get] using this
  subst e; rfl

@[simp] theorem get_set_self (t : Table n α) (i : Fin n) (a : α) : (t.set i a).get i = a :=
  List.getElem_set_self _

theorem get_set_ne (t : Table n α) {i j : Fin n} (a : α) (h : j ≠ i) : (t.set i a).get j = t.get j := by
  have : (i : Nat) ≠ (j : Nat) := fun e => h (Fin.ext e.symm)
  exact List.getElem_set_ne this _

theorem get_set (t : Table n α) (i j : Fin n) (a : α) :
    (t.set i a).get j = if j = i then a else t.get j := by
  by_cases h : j = i
  · subst h; simp
  · simp [h, get_set_ne t a h]

@[simp] theorem get_upd_self (t : Table n α) (i : Fin n) (f : α → α) :
    (t.upd i f).get i = f (t.get i) := by simp [upd]

theorem get_upd_ne (t : Table n α) {i j : Fin n} (f : α → α) (h : j ≠ i) :
    (t.upd i f).get j = t.get j := get_set_ne t _ h

theorem get_upd (t : Table n α) (i j : Fin n) (f : α → α) :
    (t.upd i f).get j = if j = i then f (t.get j) else t.get j := by
  by_cases h : j = i
  · subst h; simp
  · simp [h, get_upd_ne t f h]

@[simp] theorem get_ofFn (f : Fin n → α) (i : Fin n) : (Table.ofFn f).get i = f i := by
  simp only [get, ofFn, List.get_eq_getElem, List.getElem_ofFn]; rfl

@[simp] theorem get_fill (a : α) (i : Fin n) : (Table.fill a : Table n α).get i = a := by
  simp [get, fill]

@[simp] theorem get_mapIdx (t : Table n α) (f : Fin n → α → β) (i : Fin n) :
    (t.mapIdx f).get i = f i (t.get i) := by simp [mapIdx]

@[simp] theorem set_get_self (t : Table n α) (i : Fin n) : t.set i (t.get i) = t := by
  ext j; rw [get_set]; split <;> simp_all

theorem set_set (t : Table n α) (i : Fin n) (a b : α) : (t.set i a).set i b = t.set i b := by
  ext j; simp only [get_set]; split <;> rfl

/-- A view that a change of one cell does not touch sees the same table. -/
theorem mapIdx_upd (t : Table n α) (i : Fin n) (f : α → α) (g : Fin n → α → β)
    (h : g i (f (t.get i)) = g i (t.get i)) : (t.upd i f).mapIdx g = t.mapIdx g := by
  ext j
  rw [get_mapIdx, get_mapIdx, get_upd]
  split
  · rename_i e; subst e; exact h
  · rfl

end Sys2Proof.Table
end

