-- ==== Sys2Proof/Laws/State.lean ====
section
/-!
SUPPORT. What each update of the state does to each of its fields, true by unfolding, so that a proof over
an operation never unfolds a record update; and the fields that the two queue operations, which decide by a
queue's length, keep.
-/

namespace Sys2Proof.Machine

variable (s : State)

@[simp] theorem State.respond_fields (r : Response) :
    (s.respond r).pending = s.pending ∧
    (s.respond r).pins = s.pins ∧
    (s.respond r).ports = { s.ports with responses := s.ports.responses ++ [r] } ∧
    (s.respond r).tables = s.tables ∧ (s.respond r).mgmt = s.mgmt ∧
    (s.respond r).flow = s.flow ∧ (s.respond r).slots = s.slots ∧ (s.respond r).gate = s.gate ∧
    (s.respond r).runner = s.runner ∧ (s.respond r).arbiter = s.arbiter ∧
    (s.respond r).seq = s.seq ∧ (s.respond r).mode = s.mode ∧ (s.respond r).clock = s.clock := by
  and_intros <;> rfl

@[simp] theorem State.updSegment_fields (g : SegIx) (f : Segment → Segment) :
    (s.updSegment g f).pending = s.pending ∧
    (s.updSegment g f).pins = s.pins ∧
    (s.updSegment g f).ports = { s.ports with segments := s.ports.segments.upd g f } ∧
    (s.updSegment g f).tables = s.tables ∧ (s.updSegment g f).mgmt = s.mgmt ∧
    (s.updSegment g f).flow = s.flow ∧ (s.updSegment g f).slots = s.slots ∧
    (s.updSegment g f).gate = s.gate ∧ (s.updSegment g f).runner = s.runner ∧
    (s.updSegment g f).arbiter = s.arbiter ∧ (s.updSegment g f).seq = s.seq ∧
    (s.updSegment g f).mode = s.mode ∧ (s.updSegment g f).clock = s.clock := by
  and_intros <;> rfl

@[simp] theorem State.forwardDown_fields (g : SegIx) (c : Cmd) :
    (s.forwardDown g c).pending = s.pending ∧
    (s.forwardDown g c).pins = s.pins ∧
    (s.forwardDown g c).ports = { s.ports with segments := s.ports.segments.upd g fun x =>
        { x with forwarded := x.forwarded ++ [c] } } ∧
    (s.forwardDown g c).tables = s.tables ∧ (s.forwardDown g c).mgmt = s.mgmt ∧
    (s.forwardDown g c).flow = s.flow ∧ (s.forwardDown g c).slots = s.slots ∧
    (s.forwardDown g c).gate = s.gate ∧ (s.forwardDown g c).runner = s.runner ∧
    (s.forwardDown g c).arbiter = s.arbiter ∧ (s.forwardDown g c).seq = s.seq ∧
    (s.forwardDown g c).mode = s.mode ∧ (s.forwardDown g c).clock = s.clock := by
  and_intros <;> rfl

@[simp] theorem State.refreshPermits_fields :
    (s.refreshPermits).pending = s.pending ∧
    (s.refreshPermits).pins = { s.pins with permits := .ofFn s.permitDue } ∧
    (s.refreshPermits).ports = s.ports ∧ (s.refreshPermits).tables = s.tables ∧
    (s.refreshPermits).mgmt = s.mgmt ∧ (s.refreshPermits).flow = s.flow ∧
    (s.refreshPermits).slots = s.slots ∧ (s.refreshPermits).gate = s.gate ∧
    (s.refreshPermits).runner = s.runner ∧ (s.refreshPermits).arbiter = s.arbiter ∧
    (s.refreshPermits).seq = s.seq ∧ (s.refreshPermits).mode = s.mode ∧
    (s.refreshPermits).clock = s.clock := by
  and_intros <;> rfl

@[simp] theorem State.putLine_fields (i : LineIx) (l : Line) :
    (s.putLine i l).pending = s.pending ∧
    (s.putLine i l).pins = { s.pins with
      permits := s.pins.permits.set i (State.permitDue { s with gate := s.gate.set i l } i) } ∧
    (s.putLine i l).ports = s.ports ∧ (s.putLine i l).tables = s.tables ∧
    (s.putLine i l).mgmt = s.mgmt ∧ (s.putLine i l).flow = s.flow ∧
    (s.putLine i l).slots = s.slots ∧ (s.putLine i l).gate = s.gate.set i l ∧
    (s.putLine i l).runner = { s.runner with
      progs := s.runner.progs.upd i (Option.map (s.markPaused i l)) } ∧
    (s.putLine i l).arbiter = s.arbiter ∧ (s.putLine i l).seq = s.seq ∧
    (s.putLine i l).mode = s.mode ∧ (s.putLine i l).clock = s.clock := by
  and_intros <;> rfl

@[simp] theorem State.putProg_fields (i : LineIx) (p : Option Prog) :
    (s.putProg i p).pending = s.pending ∧
    (s.putProg i p).pins = s.pins ∧ (s.putProg i p).ports = s.ports ∧
    (s.putProg i p).tables = s.tables ∧ (s.putProg i p).mgmt = s.mgmt ∧
    (s.putProg i p).flow = s.flow ∧ (s.putProg i p).slots = s.slots ∧
    (s.putProg i p).gate = s.gate ∧
    (s.putProg i p).runner = { s.runner with progs := s.runner.progs.set i p } ∧
    (s.putProg i p).arbiter = s.arbiter ∧ (s.putProg i p).seq = s.seq ∧
    (s.putProg i p).mode = s.mode ∧ (s.putProg i p).clock = s.clock := by
  and_intros <;> rfl

@[simp] theorem State.updFilter_fields (f : FilterIx) (h : SeqFilter → SeqFilter) :
    (s.updFilter f h).pending = s.pending ∧
    (s.updFilter f h).pins = s.pins ∧ (s.updFilter f h).ports = s.ports ∧
    (s.updFilter f h).tables = s.tables ∧ (s.updFilter f h).mgmt = s.mgmt ∧
    (s.updFilter f h).flow = s.flow ∧ (s.updFilter f h).slots = s.slots ∧
    (s.updFilter f h).gate = s.gate ∧ (s.updFilter f h).runner = s.runner ∧
    (s.updFilter f h).arbiter = s.arbiter ∧
    (s.updFilter f h).seq = { s.seq with filters := s.seq.filters.upd f h } ∧
    (s.updFilter f h).mode = s.mode ∧ (s.updFilter f h).clock = s.clock := by
  and_intros <;> rfl

@[simp] theorem State.updArb_fields (f : FilterIx) (h : ArbFilter → ArbFilter) :
    (s.updArb f h).pending = s.pending ∧
    (s.updArb f h).pins = s.pins ∧ (s.updArb f h).ports = s.ports ∧
    (s.updArb f h).tables = s.tables ∧ (s.updArb f h).mgmt = s.mgmt ∧
    (s.updArb f h).flow = s.flow ∧ (s.updArb f h).slots = s.slots ∧
    (s.updArb f h).gate = s.gate ∧ (s.updArb f h).runner = s.runner ∧
    (s.updArb f h).arbiter = { s.arbiter with filters := s.arbiter.filters.upd f h } ∧
    (s.updArb f h).seq = s.seq ∧ (s.updArb f h).mode = s.mode ∧ (s.updArb f h).clock = s.clock := by
  and_intros <;> rfl

@[simp] theorem State.setPb_fields (on : Bool) :
    (s.setPb on).pending = s.pending ∧
    (s.setPb on).pins = { s.pins with pb := on } ∧ (s.setPb on).ports = s.ports ∧
    (s.setPb on).tables = s.tables ∧ (s.setPb on).mgmt = s.mgmt ∧ (s.setPb on).flow = s.flow ∧
    (s.setPb on).slots = s.slots ∧ (s.setPb on).gate = s.gate ∧ (s.setPb on).runner = s.runner ∧
    (s.setPb on).arbiter = s.arbiter ∧ (s.setPb on).seq = s.seq ∧ (s.setPb on).mode = s.mode ∧
    (s.setPb on).clock = s.clock := by
  and_intros <;> rfl

@[simp] theorem State.setPump_fields (run : Bool) :
    (s.setPump run).pending = s.pending ∧
    (s.setPump run).pins = s.pins ∧ (s.setPump run).ports = s.ports ∧
    (s.setPump run).tables = s.tables ∧ (s.setPump run).mgmt = s.mgmt ∧
    (s.setPump run).flow = s.flow ∧ (s.setPump run).slots = s.slots ∧
    (s.setPump run).gate = s.gate ∧ (s.setPump run).runner = s.runner ∧
    (s.setPump run).arbiter = s.arbiter ∧ (s.setPump run).seq = { s.seq with pumpRun := run } ∧
    (s.setPump run).mode = s.mode ∧ (s.setPump run).clock = s.clock := by
  and_intros <;> rfl

@[simp] theorem State.updRetained_fields (h : Retained → Retained) :
    (s.updRetained h).pending = s.pending ∧
    (s.updRetained h).pins = s.pins ∧ (s.updRetained h).ports = s.ports ∧
    (s.updRetained h).tables = s.tables ∧ (s.updRetained h).mgmt = s.mgmt ∧
    (s.updRetained h).flow = s.flow ∧ (s.updRetained h).slots = s.slots ∧
    (s.updRetained h).gate = s.gate ∧ (s.updRetained h).runner = s.runner ∧
    (s.updRetained h).arbiter = s.arbiter ∧ (s.updRetained h).seq = s.seq ∧
    (s.updRetained h).mode = { s.mode with retained := h s.mode.retained } ∧
    (s.updRetained h).clock = s.clock := by
  and_intros <;> rfl

@[simp] theorem State.putRunHours_fields (f : FilterIx) (r : RunHours) :
    (s.putRunHours f r).pending = s.pending ∧
    (s.putRunHours f r).pins = s.pins ∧ (s.putRunHours f r).ports = s.ports ∧
    (s.putRunHours f r).tables = s.tables ∧ (s.putRunHours f r).mgmt = s.mgmt ∧
    (s.putRunHours f r).flow = s.flow ∧ (s.putRunHours f r).slots = s.slots ∧
    (s.putRunHours f r).gate = s.gate ∧ (s.putRunHours f r).runner = s.runner ∧
    (s.putRunHours f r).arbiter = s.arbiter ∧ (s.putRunHours f r).seq = s.seq ∧
    (s.putRunHours f r).mode = { s.mode with retained := { s.mode.retained with
        runHours := s.mode.retained.runHours.set f r } } ∧
    (s.putRunHours f r).clock = s.clock := by
  and_intros <;> rfl

@[simp] theorem State.updClock_fields (h : Clock → Clock) :
    (s.updClock h).pending = s.pending ∧
    (s.updClock h).pins = s.pins ∧ (s.updClock h).ports = s.ports ∧
    (s.updClock h).tables = s.tables ∧ (s.updClock h).mgmt = s.mgmt ∧
    (s.updClock h).flow = s.flow ∧ (s.updClock h).slots = s.slots ∧
    (s.updClock h).gate = s.gate ∧ (s.updClock h).runner = s.runner ∧
    (s.updClock h).arbiter = s.arbiter ∧ (s.updClock h).seq = s.seq ∧
    (s.updClock h).mode = s.mode ∧ (s.updClock h).clock = h s.clock := by
  and_intros <;> rfl

@[simp] theorem State.updConditions_fields (h : Conditions → Conditions) :
    (s.updConditions h).pending = s.pending ∧
    (s.updConditions h).pins = s.pins ∧ (s.updConditions h).ports = s.ports ∧
    (s.updConditions h).tables = s.tables ∧
    (s.updConditions h).mgmt = { s.mgmt with conditions := h s.mgmt.conditions } ∧
    (s.updConditions h).flow = s.flow ∧ (s.updConditions h).slots = s.slots ∧
    (s.updConditions h).gate = s.gate ∧ (s.updConditions h).runner = s.runner ∧
    (s.updConditions h).arbiter = s.arbiter ∧ (s.updConditions h).seq = s.seq ∧
    (s.updConditions h).mode = s.mode ∧ (s.updConditions h).clock = s.clock := by
  and_intros <;> rfl

@[simp] theorem State.updTables_fields (h : Tables → Tables) :
    (s.updTables h).pending = s.pending ∧
    (s.updTables h).pins = s.pins ∧ (s.updTables h).ports = s.ports ∧
    (s.updTables h).tables = h s.tables ∧ (s.updTables h).mgmt = s.mgmt ∧
    (s.updTables h).flow = s.flow ∧ (s.updTables h).slots = s.slots ∧
    (s.updTables h).gate = s.gate ∧ (s.updTables h).runner = s.runner ∧
    (s.updTables h).arbiter = s.arbiter ∧ (s.updTables h).seq = s.seq ∧
    (s.updTables h).mode = s.mode ∧ (s.updTables h).clock = s.clock := by
  and_intros <;> rfl

@[simp] theorem State.updCircuit_fields (c : CircuitIx) (h : Circuit → Circuit) :
    (s.updCircuit c h).pending = s.pending ∧
    (s.updCircuit c h).pins = s.pins ∧ (s.updCircuit c h).ports = s.ports ∧
    (s.updCircuit c h).tables = s.tables ∧ (s.updCircuit c h).mgmt = s.mgmt ∧
    (s.updCircuit c h).flow = { s.flow with circuits := s.flow.circuits.upd c h } ∧
    (s.updCircuit c h).slots = s.slots ∧ (s.updCircuit c h).gate = s.gate ∧
    (s.updCircuit c h).runner = s.runner ∧ (s.updCircuit c h).arbiter = s.arbiter ∧
    (s.updCircuit c h).seq = s.seq ∧ (s.updCircuit c h).mode = s.mode ∧
    (s.updCircuit c h).clock = s.clock := by
  and_intros <;> rfl

@[simp] theorem State.putSlot_fields (k : SlotIx) (x : Slot) :
    (s.putSlot k x).pending = s.pending ∧
    (s.putSlot k x).pins = s.pins ∧ (s.putSlot k x).ports = s.ports ∧
    (s.putSlot k x).tables = s.tables ∧ (s.putSlot k x).mgmt = s.mgmt ∧
    (s.putSlot k x).flow = s.flow ∧ (s.putSlot k x).slots = s.slots.set k x ∧
    (s.putSlot k x).gate = s.gate ∧ (s.putSlot k x).runner = s.runner ∧
    (s.putSlot k x).arbiter = s.arbiter ∧ (s.putSlot k x).seq = s.seq ∧
    (s.putSlot k x).mode = s.mode ∧ (s.putSlot k x).clock = s.clock := by
  and_intros <;> rfl

@[simp] theorem State.freeArbiter_fields :
    (s.freeArbiter).pending = s.pending ∧
    (s.freeArbiter).pins = s.pins ∧ (s.freeArbiter).ports = s.ports ∧
    (s.freeArbiter).tables = s.tables ∧ (s.freeArbiter).mgmt = s.mgmt ∧
    (s.freeArbiter).flow = s.flow ∧ (s.freeArbiter).slots = s.slots ∧
    (s.freeArbiter).gate = s.gate ∧ (s.freeArbiter).runner = s.runner ∧
    (s.freeArbiter).arbiter = { s.arbiter with busy := none } ∧ (s.freeArbiter).seq = s.seq ∧
    (s.freeArbiter).mode = s.mode ∧ (s.freeArbiter).clock = s.clock := by
  and_intros <;> rfl

@[simp] theorem State.notify_fields (n : Notice) :
    (s.notify n).pending = s.pending ∧
    (s.notify n).pins = s.pins ∧ (s.notify n).tables = s.tables ∧ (s.notify n).flow = s.flow ∧
    (s.notify n).slots = s.slots ∧ (s.notify n).gate = s.gate ∧ (s.notify n).runner = s.runner ∧
    (s.notify n).arbiter = s.arbiter ∧ (s.notify n).seq = s.seq ∧ (s.notify n).mode = s.mode ∧
    (s.notify n).clock = s.clock ∧ (s.notify n).ports.segments = s.ports.segments ∧
    (s.notify n).ports.responses = s.ports.responses ∧
    (s.notify n).ports.forwarded = s.ports.forwarded ∧ (s.notify n).mgmt.write = s.mgmt.write ∧
    (s.notify n).mgmt.store = s.mgmt.store := by
  unfold State.notify; split <;> and_intros <;> rfl

@[simp] theorem State.forwardUp_fields (f : Frame) :
    (s.forwardUp f).pending = s.pending ∧
    (s.forwardUp f).pins = s.pins ∧ (s.forwardUp f).tables = s.tables ∧
    (s.forwardUp f).flow = s.flow ∧ (s.forwardUp f).slots = s.slots ∧
    (s.forwardUp f).gate = s.gate ∧ (s.forwardUp f).runner = s.runner ∧
    (s.forwardUp f).arbiter = s.arbiter ∧ (s.forwardUp f).seq = s.seq ∧
    (s.forwardUp f).mode = s.mode ∧ (s.forwardUp f).clock = s.clock ∧
    (s.forwardUp f).ports.segments = s.ports.segments ∧
    (s.forwardUp f).ports.responses = s.ports.responses ∧
    (s.forwardUp f).ports.notices = s.ports.notices ∧
    (s.forwardUp f).mgmt.write = s.mgmt.write ∧ (s.forwardUp f).mgmt.store = s.mgmt.store := by
  unfold State.forwardUp; split <;> and_intros <;> rfl

end Sys2Proof.Machine
end

