-- ==== Sys2Proof/Laws/Gate.lean ====
section
/-!
SUPPORT. What the shared operations of the Dose Gate and of the Programme Runner can do, said once: they
change the lines, the permits, the programmes, the segments' own queues and the notices, and nothing else;
and they keep the bounds of the queues.
-/

namespace Sys2Proof.Machine

open Sys2Proof.Safety

/-- The state with everything the Dose Gate and the Runner may change blanked. -/
def State.offGate (s : State) : State :=
  { s with
    pins := { s.pins with permits := .fill false }
    ports := { s.ports with
      notices := []
      segments := s.ports.segments.mapIdx fun _ x => { x with own := [] } }
    mgmt := { s.mgmt with conditions := { s.mgmt.conditions with noticesDropped := false } }
    gate := .fill Line.atReset
    runner := { s.runner with progs := .fill none } }

/-- From `s` to `t` only what the Dose Gate and the Runner own has changed, and the queues' bounds are
kept. -/
structure GateFrame (s t : State) : Prop where
  same : t.offGate = s.offGate
  queues : QueuesOk s → QueuesOk t

namespace GateFrame

theorem refl (s : State) : GateFrame s s := ⟨rfl, id⟩

theorem trans {s t u : State} (h : GateFrame s t) (k : GateFrame t u) : GateFrame s u :=
  ⟨k.same.trans h.same, k.queues ∘ h.queues⟩

/-- A change that leaves the ports and the Management Unit alone. -/
theorem of_ports {s t : State} (h : t.offGate = s.offGate) (hp : t.ports = s.ports)
    (hm : t.mgmt = s.mgmt) : GateFrame s t :=
  ⟨h, fun q => by simpa only [QueuesOk, State.placesTaken, hp, hm] using q⟩

section
variable {s t : State} (h : GateFrame s t)
include h

theorem pending : t.pending = s.pending := congrArg (·.pending) h.same
theorem tables : t.tables = s.tables := congrArg (·.tables) h.same
theorem flow : t.flow = s.flow := congrArg (·.flow) h.same
theorem slots : t.slots = s.slots := congrArg (·.slots) h.same
theorem arbiter : t.arbiter = s.arbiter := congrArg (·.arbiter) h.same
theorem seq : t.seq = s.seq := congrArg (·.seq) h.same
theorem mode : t.mode = s.mode := congrArg (·.mode) h.same
theorem clock : t.clock = s.clock := congrArg (·.clock) h.same
theorem plantStop : t.pins.plantStop = s.pins.plantStop := congrArg (·.pins.plantStop) h.same
theorem keyswitch : t.pins.keyswitch = s.pins.keyswitch := congrArg (·.pins.keyswitch) h.same
theorem pb : t.pins.pb = s.pins.pb := congrArg (·.pins.pb) h.same
theorem lockout : t.pins.lockout = s.pins.lockout := congrArg (·.pins.lockout) h.same
theorem responses : t.ports.responses = s.ports.responses := congrArg (·.ports.responses) h.same
theorem forwarded : t.ports.forwarded = s.ports.forwarded := congrArg (·.ports.forwarded) h.same
theorem started : t.ports.started = s.ports.started := congrArg (·.ports.started) h.same
theorem store : t.mgmt.store = s.mgmt.store := congrArg (·.mgmt.store) h.same
theorem write : t.mgmt.write = s.mgmt.write := congrArg (·.mgmt.write) h.same
theorem totals : t.runner.totals = s.runner.totals := congrArg (·.runner.totals) h.same
theorem latches : t.runner.latches = s.runner.latches := congrArg (·.runner.latches) h.same
theorem placesTaken : t.placesTaken = s.placesTaken := by
  simp only [State.placesTaken, h.responses, h.write]
theorem modeNow : t.modeNow = s.modeNow := by simp only [State.modeNow, h.mode]
theorem flowClass (c : CircuitIx) : t.flowClass c = s.flowClass c := by
  simp only [State.flowClass, h.flow]
theorem backwashOf (f : FilterIx) : t.backwashOf f = s.backwashOf f := by
  simp only [State.backwashOf, h.seq]
theorem reading (k : SlotIx) : t.reading k = s.reading k := by simp only [State.reading, h.slots]

/-- A segment port keeps all but its own queue. -/
theorem segment (g : SegIx) :
    { t.ports.segments.get g with own := [] } = { s.ports.segments.get g with own := [] } := by
  simpa [State.offGate] using congrArg (·.ports.segments.get g) h.same
theorem segState (g : SegIx) : t.segState g = s.segState g :=
  congrArg (·.state) (h.segment g)
theorem segForwarded (g : SegIx) :
    (t.ports.segments.get g).forwarded = (s.ports.segments.get g).forwarded :=
  congrArg (·.forwarded) (h.segment g)

end

/-- A fold of operations that keep the frame keeps it. -/
theorem foldl {α : Type} {f : State → α → State} (h : ∀ s a, GateFrame s (f s a)) (l : List α)
    (s : State) : GateFrame s (l.foldl f s) := by
  induction l generalizing s with
  | nil => exact refl s
  | cons a l ih => exact (h s a).trans (ih _)

theorem forLines {f : State → LineIx → State} (h : ∀ s i, GateFrame s (f s i)) (s : State) :
    GateFrame s (s.forLines f) := foldl h _ s

end GateFrame

/-! ## The queues -/

/-- Two commands that are for one key are for the same keys. -/
theorem Cmd.sameKey_comm (a b : Cmd) : a.sameKey b = b.sameKey a := by
  simp only [Cmd.sameKey, Bool.beq_comm]

/-- Offering a frame keeps the port's bounds and its one frame for a key (R15). -/
theorem Segment.offer_ok (x : Segment) (c : Cmd) (h : SegmentOk x) : SegmentOk (x.offer c) := by
  obtain ⟨h1, h2, h3, h4⟩ := h
  unfold Segment.offer
  split
  · exact ⟨h1, h2, h3, h4⟩
  split
  · refine ⟨h1, by simpa using h2, ?_, fun e => absurd e (by assumption)⟩
    refine (List.pairwise_map.2 (h3.imp ?_))
    intro a b hab
    have key : ∀ d e : Cmd, (if c.sameKey d = true then { d with value := c.value } else d).sameKey e
        = d.sameKey e := fun d e => by split <;> rfl
    rw [key, Cmd.sameKey_comm, key, Cmd.sameKey_comm]
    exact hab
  split
  · rename_i hk hl
    refine ⟨h1, by simpa [Config.ownPlaces] using hl, ?_, fun e => absurd e (by assumption)⟩
    refine List.pairwise_append.2 ⟨h3, List.pairwise_singleton _ _, fun a ha b hb => ?_⟩
    rw [List.mem_singleton.1 hb, Cmd.sameKey_comm]
    simp only [List.any_eq_true, not_exists, not_and, Bool.not_eq_true] at hk
    exact hk a ha
  · exact ⟨h1, h2, h3, h4⟩

/-- Offering a frame changes the own queue only (R15). -/
theorem Segment.offer_frame (x : Segment) (c : Cmd) :
    { x.offer c with own := [] } = { x with own := [] } := by
  unfold Segment.offer; split; · rfl
  split; · rfl
  split <;> rfl

/-- A notice changes the notice queue or sets NOTICES_DROPPED (R17). -/
theorem State.notify_gate (s : State) (n : Notice) : GateFrame s (s.notify n) := by
  unfold State.notify
  split
  · rename_i hl
    refine ⟨rfl, fun q => ⟨?_, q.2.1, q.2.2.1, q.2.2.2⟩⟩
    simpa [Config.noticePlaces] using hl
  · exact ⟨rfl, fun q => q⟩

theorem State.refuse_gate (s : State) (o : ObjectKind) (n : Nat) (c : Cause) (v : Nat) :
    GateFrame s (s.refuse o n c v) := s.notify_gate _

/-- Originating a command changes one own queue (R15). -/
theorem State.originate_gate (s : State) (k : Option (Fin 48)) (v : Nat) :
    GateFrame s (s.originate k v) := by
  unfold State.originate
  split
  · exact .refl s
  dsimp only
  split
  · exact .refl s
  refine ⟨?_, fun q => ⟨q.1, q.2.1, q.2.2.1, fun g => ?_⟩⟩
  · simp only [State.offGate, State.updSegment]
    rw [Table.mapIdx_upd _ _ _ _ (Segment.offer_frame _ _)]
  · simp only [State.updSegment, Table.get_upd]
    split
    · exact Segment.offer_ok _ _ (q.2.2.2 g)
    · exact q.2.2.2 g

/-! ## The Dose Gate -/

theorem State.refreshPermits_gate (s : State) : GateFrame s s.refreshPermits :=
  .of_ports rfl rfl rfl

theorem State.putLine_gate (s : State) (i : LineIx) (l : Line) : GateFrame s (s.putLine i l) :=
  .of_ports rfl rfl rfl

theorem State.putProg_gate (s : State) (i : LineIx) (p : Option Prog) :
    GateFrame s (s.putProg i p) := .of_ports rfl rfl rfl

theorem State.endProgramme_gate (s : State) (i : LineIx) (c : Cause) :
    GateFrame s (s.endProgramme i c) := by
  unfold State.endProgramme
  split
  · exact .refl s
  · exact (s.putProg_gate i none).trans (State.notify_gate _ _)

theorem State.startConfirm_gate (s : State) (i : LineIx) : GateFrame s (s.startConfirm i) :=
  s.putLine_gate _ _

theorem State.excludeDrop_gate (s : State) (i : LineIx) : GateFrame s (s.excludeDrop i) :=
  ((s.putLine_gate _ _).trans (State.refuse_gate _ _ _ _ _)).trans (State.endProgramme_gate _ _ _)

theorem State.recompute_gate (s : State) (w : For) (i : LineIx) : GateFrame s (s.recompute w i) := by
  unfold State.recompute
  extract_lets l r t u
  split
  · exact s.excludeDrop_gate i
  split
  · exact s.putLine_gate _ _
  have ht : GateFrame s t := (s.putLine_gate _ _).trans (State.startConfirm_gate _ _)
  have hu : GateFrame s u := by
    unfold u
    split
    · exact ht
    · exact ht.trans (t.originate_gate _ _)
  split
  · exact hu.trans (u.notify_gate _)
  · exact hu

theorem State.resumeExpired_gate (s : State) (i : LineIx) : GateFrame s (s.resumeExpired i) := by
  unfold State.resumeExpired
  dsimp only
  split
  · exact s.excludeDrop_gate i
  split
  · exact s.putLine_gate _ _
  · exact (s.putLine_gate _ _).trans (State.recompute_gate _ _ _)

theorem State.applyCauses_gate (s : State) (i : LineIx) (new : Causes) :
    GateFrame s (s.applyCauses i new) := by
  unfold State.applyCauses
  extract_lets l cleared requested next resumes delay t
  split
  · exact .refl s
  have ht : GateFrame s t := s.putLine_gate _ _
  have hu : GateFrame s (match l.causes.clearedBy new with
      | some c => t.endProgramme i c
      | none => t) := by
    split
    · exact ht.trans (t.endProgramme_gate _ _)
    · exact ht
  split
  · exact hu.trans (State.resumeExpired_gate _ _)
  · exact hu.trans (State.recompute_gate _ _ _)

/-- Changing the causes of the lines that `p` holds of. -/
theorem State.linesWhere_gate (p : State → LineIx → Prop) [∀ s i, Decidable (p s i)]
    (c : State → LineIx → Causes) (s : State) :
    GateFrame s (s.forLines fun s i => if p s i then s.applyCauses i (c s i) else s) :=
  GateFrame.forLines (fun s i => by
    split
    · exact s.applyCauses_gate _ _
    · exact .refl s) s

theorem State.gateFlow_gate (s : State) (c : CircuitIx) : GateFrame s (s.gateFlow c) :=
  s.refreshPermits_gate.trans (State.linesWhere_gate _ _ _)

theorem State.gateReading_gate (s : State) (k : SlotIx) : GateFrame s (s.gateReading k) :=
  State.linesWhere_gate _ _ s

theorem State.gateBackwash_gate (s : State) (c : CircuitIx) : GateFrame s (s.gateBackwash c) :=
  State.linesWhere_gate _ _ s

theorem State.gateSegment_gate (s : State) (g : SegIx) : GateFrame s (s.gateSegment g) :=
  State.linesWhere_gate _ _ s

theorem State.gateCirculation_gate (s : State) (c : CircuitIx) (b : Bool) :
    GateFrame s (s.gateCirculation c b) := State.linesWhere_gate _ _ s

theorem State.gateAfresh_gate (s : State) (i : LineIx) : GateFrame s (s.gateAfresh i) :=
  s.applyCauses_gate _ _

/-- The report of the plant stop input changes, beside what the Dose Gate owns, the input alone (R68). -/
theorem State.gatePlantStop_gate (s : State) (on : Bool) :
    GateFrame { s with pins := { s.pins with plantStop := on } } (s.gatePlantStop on) :=
  (State.refreshPermits_gate _).trans (GateFrame.forLines (fun s _ => s.applyCauses_gate _ _) _)

theorem State.faultLine_gate (s : State) (i : LineIx) (r : LineFault) (v : Nat) :
    GateFrame s (s.faultLine i r v) :=
  (((s.putLine_gate _ _).trans (State.originate_gate _ _ _)).trans (State.notify_gate _ _)).trans
    (State.endProgramme_gate _ _ _)

theorem State.act_gate (s : State) (w : For) (i : LineIx) (v : Nat) (o : Source) :
    GateFrame s (s.act w i v o) := (s.putLine_gate _ _).trans (State.recompute_gate _ _ _)

theorem State.overrideProgramme_gate (s : State) (i : LineIx) (v : Nat) :
    GateFrame s (s.overrideProgramme i v) := by
  unfold State.overrideProgramme
  split
  · exact .refl s
  · exact (s.putProg_gate _ _).trans (State.notify_gate _ _)

theorem State.zeroRequest_gate (s : State) (i : LineIx) : GateFrame s (s.zeroRequest i) :=
  (s.putLine_gate _ _).trans (State.recompute_gate _ _ _)

/-! ## The Programme Runner -/

theorem State.submit_gate (s : State) (i : LineIx) (w : Which) (r : Nat) :
    GateFrame s (s.submit i w r).1 := by
  unfold State.submit
  split
  · exact .refl s
  split
  · exact s.putLine_gate _ _
  · exact s.act_gate _ _ _ _

theorem State.release_gate (s : State) (i : LineIx) : GateFrame s (s.release i) := by
  unfold State.release
  split
  · exact s.zeroRequest_gate i
  · exact .refl s

theorem State.endAndRelease_gate (s : State) (i : LineIx) (c : Cause) :
    GateFrame s (s.endAndRelease i c) := (s.endProgramme_gate i c).trans (State.release_gate _ _)

theorem State.beginStep_gate (s : State) (i : LineIx) (w : Which) (n : Nat) :
    GateFrame s (s.beginStep i w n).1 := by
  unfold State.beginStep
  extract_lets r o
  have h : GateFrame s o.1 := (s.putProg_gate _ _).trans (State.submit_gate _ _ _ _)
  split
  · exact h.trans (State.notify_gate _ _)
  all_goals exact h

theorem State.startStep_gate (s : State) (i : LineIx) (w : Which) (n : Nat) :
    GateFrame s (s.startStep i w n) := by
  unfold State.startStep
  dsimp only
  split
  · exact (s.beginStep_gate i w n).trans (State.endAndRelease_gate _ _ _)
  all_goals exact s.beginStep_gate i w n

theorem State.stepEnded_gate (s : State) (i : LineIx) (p : Prog) :
    GateFrame s (s.stepEnded i p) := by
  unfold State.stepEnded
  extract_lets n
  split
  · exact s.startStep_gate _ _ _
  split
  · exact s.startStep_gate _ _ _
  · exact s.endAndRelease_gate _ _

theorem State.switchProgrammes_gate (s : State) (c : CircuitIx) :
    GateFrame s (s.switchProgrammes c) := by
  refine GateFrame.forLines (fun s i => ?_) s
  dsimp only
  split
  · split
    · exact (s.putProg_gate _ _).trans (State.startStep_gate _ _ _ _)
    · exact (s.putProg_gate _ _).trans (State.release_gate _ _)
  · exact .refl s

/-- What takes a line's command changes the line's frame and one forwarded queue (R57): every block but
those keeps what it held. -/
theorem State.lineCommand_cases (s : State) (k : Fin 48) (g : SegIx) (i : LineIx) (c : Cmd) :
    GateFrame s (s.lineCommand k g i c) ∨
      ∃ t v u, GateFrame s t ∧ GateFrame (t.forwardDown g { c with value := v }) u ∧
        s.lineCommand k g i c = u := by
  unfold State.lineCommand
  split
  · exact .inl (s.refuse_gate _ _ _ _)
  extract_lets t _ u l v
  have ht : GateFrame s t := s.overrideProgramme_gate _ _
  split
  · exact .inl ((ht.trans (t.putLine_gate _ _)).trans (State.refuse_gate _ _ _ _ _))
  have hu : GateFrame s u := (ht.trans (t.act_gate _ _ _ _)).trans (State.startConfirm_gate _ _)
  refine .inr ⟨u, l.admitted, _, hu, ?_, rfl⟩
  split
  · exact .refl v
  · exact v.notify_gate _

end Sys2Proof.Machine
end

