-- ==== Sys2Proof/Laws/Dose.lean ====
section
/-!
SUPPORT. The guarantees of the Dose Gate (00_scope) under its shared operations: an operation that has
written line `i` and then recomputes it restores them.
-/

namespace Sys2Proof.Machine

open Sys2Proof.Safety

/-- From `s` to `t` at most line `i` and its permit have changed, and that permit is as due. -/
structure LineFrame (i : LineIx) (s t : State) : Prop where
  frame : GateFrame s t
  others : ∀ j, j ≠ i → t.gate.get j = s.gate.get j
  permits : ∀ j, j ≠ i → t.pins.permits.get j = s.pins.permits.get j
  permit : t.pins.permits.get i = true → t.permitDue i = true

/-- From `s` to `t` no line and no permit has changed. -/
structure QuietFrame (s t : State) : Prop where
  frame : GateFrame s t
  gate : t.gate = s.gate
  permits : t.pins.permits = s.pins.permits

theorem QuietFrame.refl (s : State) : QuietFrame s s := ⟨.refl s, rfl, rfl⟩

theorem QuietFrame.trans {s t u : State} (h : QuietFrame s t) (k : QuietFrame t u) :
    QuietFrame s u := ⟨h.frame.trans k.frame, k.gate.trans h.gate, k.permits.trans h.permits⟩

/-- A line's permit conditions follow from the line and from what the frame keeps (R55). -/
theorem GateFrame.permitDue {s t : State} (h : GateFrame s t) {i : LineIx}
    (g : t.gate.get i = s.gate.get i) : t.permitDue i = s.permitDue i := by
  simp only [State.permitDue, g, h.tables, h.flowClass, h.plantStop, h.modeNow]

theorem LineFrame.trans_quiet {i : LineIx} {s t u : State} (h : LineFrame i s t)
    (k : QuietFrame t u) : LineFrame i s u where
  frame := h.frame.trans k.frame
  others j e := by rw [k.gate, h.others j e]
  permits j e := by rw [k.permits, h.permits j e]
  permit e := by
    rw [k.frame.permitDue (by rw [k.gate])]
    exact h.permit (by rwa [k.permits] at e)

theorem LineFrame.trans {i : LineIx} {s t u : State} (h : LineFrame i s t) (k : LineFrame i t u) :
    LineFrame i s u where
  frame := h.frame.trans k.frame
  others j e := (k.others j e).trans (h.others j e)
  permits j e := (k.permits j e).trans (h.permits j e)
  permit := k.permit

theorem QuietFrame.trans_line {i : LineIx} {s t u : State} (h : QuietFrame s t)
    (k : LineFrame i t u) : LineFrame i s u where
  frame := h.frame.trans k.frame
  others j e := by rw [k.others j e, h.gate]
  permits j e := by rw [k.permits j e, h.permits]
  permit := k.permit

/-! ## The operations that write one line -/

theorem State.notify_quiet (s : State) (n : Notice) : QuietFrame s (s.notify n) :=
  ⟨s.notify_gate n, by simp, by simp⟩

theorem State.originate_quiet (s : State) (k : Option (Fin 48)) (v : Nat) :
    QuietFrame s (s.originate k v) := by
  refine ⟨s.originate_gate k v, ?_, ?_⟩ <;>
  · unfold State.originate
    split
    · rfl
    · dsimp only; split <;> rfl

theorem State.putProg_quiet (s : State) (i : LineIx) (p : Option Prog) :
    QuietFrame s (s.putProg i p) := ⟨s.putProg_gate i p, rfl, rfl⟩

theorem State.endProgramme_quiet (s : State) (i : LineIx) (c : Cause) :
    QuietFrame s (s.endProgramme i c) := by
  unfold State.endProgramme
  split
  · exact .refl s
  · exact (s.putProg_quiet i none).trans (State.notify_quiet _ _)

theorem State.putLine_line (s : State) (i : LineIx) (l : Line) : LineFrame i s (s.putLine i l) where
  frame := s.putLine_gate i l
  others j e := by simp [Table.get_set_ne _ _ e]
  permits j e := by simp [Table.get_set_ne _ _ e]
  permit e := by
    have e' : State.permitDue { s with gate := s.gate.set i l } i = true := by
      rwa [(s.putLine_fields i l).2.1, Table.get_set_self] at e
    exact e'

@[simp] theorem State.putLine_get (s : State) (i : LineIx) (l : Line) :
    (s.putLine i l).gate.get i = l := by simp

/-! ## Half-way through an event on line `i` -/

/-- The guarantees hold of every line but `i`; line `i` may be in any state it can be recomputed from. -/
structure DoseBut (i : LineIx) (s : State) : Prop where
  disabled : ∀ j, (s.tables.lines.get j).enabled = false → (s.gate.get j).state = .disabled
  circuits : ∀ c, (s.tables.circuits.get c).enabled = false → s.flowClass c = .none
  idle : ∀ j, j ≠ i → (s.gate.get j).state ≠ .dosing → (s.gate.get j).admitted = 0
  permits : PermitsOk s
  exclusion : ExclusionOk s

/-- No other line doses at the point of line `i` (R56, R60). -/
theorem State.otherDosing_false (s : State) (i : LineIx) :
    s.otherDosing i = false ↔ ∀ j, j ≠ i →
      (s.tables.lines.get j).injectionPoint = (s.tables.lines.get i).injectionPoint →
      (s.gate.get j).admitted = 0 := by
  simp only [State.otherDosing, List.any_eq_false, List.mem_finRange, true_implies,
    Bool.and_eq_true, bne_iff_ne, ne_eq, beq_iff_eq, decide_eq_true_eq, not_and, not_lt,
    Nat.le_zero_eq, and_imp]

theorem DoseBut.of {i : LineIx} {s : State} (h : DoseOk s) : DoseBut i s :=
  ⟨h.1.1, h.1.2, fun j _ => h.2.1 j, h.2.2.1, h.2.2.2⟩

theorem DoseBut.dose {i : LineIx} {s : State} (h : DoseBut i s)
    (hi : (s.gate.get i).state ≠ .dosing → (s.gate.get i).admitted = 0) : DoseOk s := by
  refine ⟨⟨h.disabled, h.circuits⟩, fun j => ?_, h.permits, h.exclusion⟩
  by_cases e : j = i
  · subst e; exact hi
  · exact h.idle j e

/-- A change of line `i` alone keeps the guarantees of the others, if an enabled line's state is written
and a rate above 0 is written only where no other line doses at its point. -/
theorem DoseBut.line {i : LineIx} {s t : State} (h : DoseBut i s) (f : LineFrame i s t)
    (hd : (s.tables.lines.get i).enabled = false → (t.gate.get i).state = .disabled)
    (hx : 0 < (t.gate.get i).admitted → 0 < (s.gate.get i).admitted ∨ s.otherDosing i = false) :
    DoseBut i t where
  disabled j e := by
    rw [f.frame.tables] at e
    by_cases c : j = i
    · subst c; exact hd e
    · rw [f.others j c]; exact h.disabled j e
  circuits c e := by
    rw [f.frame.tables] at e
    rw [f.frame.flowClass]; exact h.circuits c e
  idle j c := by rw [f.others j c]; exact h.idle j c
  permits j e := by
    by_cases c : j = i
    · subst c; exact f.permit e
    · rw [f.permits j c] at e
      rw [f.frame.permitDue (f.others j c)]; exact h.permits j e
  exclusion j k c e := by
    rw [f.frame.tables] at e
    have key : ∀ k, k ≠ i → (s.tables.lines.get k).injectionPoint =
        (s.tables.lines.get i).injectionPoint →
        (t.gate.get i).admitted = 0 ∨ (s.gate.get k).admitted = 0 := by
      intro k hk hp
      rcases Nat.eq_zero_or_pos (t.gate.get i).admitted with hz | hz
      · exact .inl hz
      rcases hx hz with h1 | h1
      · rcases h.exclusion k i hk hp with h2 | h2
        · exact .inr h2
        · omega
      · exact .inr ((s.otherDosing_false i).1 h1 k hk hp)
    by_cases c1 : j = i
    · subst c1
      rw [f.others k (Ne.symm c)]
      exact key k (Ne.symm c) e.symm
    · by_cases c2 : k = i
      · subst c2
        rw [f.others j c1]
        exact (key j c1 e).symm
      · rw [f.others j c1, f.others k c2]; exact h.exclusion j k c e

theorem DoseBut.quiet {i : LineIx} {s t : State} (h : DoseBut i s) (f : QuietFrame s t) :
    DoseBut i t where
  disabled j e := by rw [f.frame.tables] at e; rw [f.gate]; exact h.disabled j e
  circuits c e := by rw [f.frame.tables] at e; rw [f.frame.flowClass]; exact h.circuits c e
  idle j c := by rw [f.gate]; exact h.idle j c
  permits j e := by
    rw [f.permits] at e
    rw [f.frame.permitDue (by rw [f.gate])]; exact h.permits j e
  exclusion j k c e := by
    rw [f.frame.tables] at e
    rw [f.gate]; exact h.exclusion j k c e

theorem QuietFrame.dose {s t : State} (f : QuietFrame s t) (h : DoseOk s) : DoseOk t :=
  ((DoseBut.of (i := 0) h).quiet f).dose (by rw [f.gate]; exact h.2.1 0)

/-! ## The recompute (R54, R60) -/

/-- Dropping a line that was to start at a point another line doses at (R60). -/
theorem State.excludeDrop_line (s : State) (i : LineIx) :
    LineFrame i s (s.excludeDrop i) ∧ ((s.excludeDrop i).gate.get i).state = .stopped ∧
      ((s.excludeDrop i).gate.get i).admitted = (s.gate.get i).admitted := by
  unfold State.excludeDrop
  extract_lets l
  have q := ((s.putLine i { l with state := .stopped, requested := 0, source := .none, resume := 0
    }).notify_quiet ⟨.refused, .line, i.val + 1, .excluded, l.requested⟩).trans
    (State.endProgramme_quiet _ i .excluded)
  refine ⟨(s.putLine_line _ _).trans_quiet q, ?_, ?_⟩ <;>
  · rw [show ∀ x y z w v, State.refuse x y z w v = x.notify ⟨.refused, y, z, w, v⟩ from
      fun _ _ _ _ _ => rfl, q.gate, State.putLine_get]

/-- What a recompute leaves of line `i`: the rate of R53, or, where a rise from 0 meets another line that
doses at the point, the line STOPPED at 0 (R54, R60). -/
theorem State.recompute_line (s : State) (w : For) (i : LineIx) :
    LineFrame i s (s.recompute w i) ∧
      ((((s.recompute w i).gate.get i).state = (s.gate.get i).state ∧
          ((s.recompute w i).gate.get i).admitted = (s.admittedRate i).1 ∧
          ((s.gate.get i).admitted = 0 → 0 < (s.admittedRate i).1 → s.otherDosing i = false)) ∨
        ((s.gate.get i).state = .dosing ∧ ((s.recompute w i).gate.get i).state = .stopped ∧
          ((s.recompute w i).gate.get i).admitted = 0)) := by
  unfold State.recompute
  extract_lets l r t u
  split
  · rename_i h
    have e := s.excludeDrop_line i
    refine ⟨e.1, .inr ⟨?_, e.2.1, e.2.2.trans h.1⟩⟩
    have h1 := h.2.1
    unfold r State.admittedRate at h1
    by_contra c
    simp [c] at h1
  rename_i hx
  have hx' : (s.gate.get i).admitted = 0 → 0 < (s.admittedRate i).1 → s.otherDosing i = false := by
    intro a b
    by_contra c
    exact hx ⟨a, b, by simpa using c⟩
  split
  · rename_i h
    exact ⟨s.putLine_line _ _, .inl ⟨by simp [l], by simpa [l] using h.symm, hx'⟩⟩
  have ht : LineFrame i s t ∧ (t.gate.get i).state = l.state ∧ (t.gate.get i).admitted = r.1 := by
    refine ⟨(s.putLine_line _ _).trans (State.putLine_line _ _ _), ?_, ?_⟩ <;>
    simp [t, State.startConfirm]
  have hq : QuietFrame t u := by
    unfold u; split
    · exact .refl t
    · exact t.originate_quiet _ _
  have hu : LineFrame i s u ∧ (u.gate.get i).state = l.state ∧ (u.gate.get i).admitted = r.1 :=
    ⟨ht.1.trans_quiet hq, by rw [hq.gate, ht.2.1], by rw [hq.gate, ht.2.2]⟩
  split
  · exact ⟨hu.1.trans_quiet (u.notify_quiet _), .inl ⟨by simpa using hu.2.1, by simpa using hu.2.2,
      hx'⟩⟩
  · exact ⟨hu.1, .inl ⟨hu.2.1, hu.2.2, hx'⟩⟩

/-- A recompute restores the guarantees, whatever the state written to line `i` before it. -/
theorem State.recompute_dose (s : State) (w : For) (i : LineIx) (h : DoseBut i s) :
    DoseOk (s.recompute w i) := by
  obtain ⟨f, c⟩ := s.recompute_line w i
  refine (h.line f ?_ ?_).dose ?_
  · intro e
    have := h.disabled i e
    rcases c with ⟨c, -⟩ | ⟨c, -⟩
    · rw [c, this]
    · rw [this] at c; contradiction
  · rcases c with ⟨-, c1, c2⟩ | ⟨-, -, c⟩
    · rw [c1]; intro p
      rcases Nat.eq_zero_or_pos (s.gate.get i).admitted with z | z
      · exact .inr (c2 z p)
      · exact .inl z
    · rw [c]; intro p; omega
  · rcases c with ⟨c1, c2, -⟩ | ⟨-, -, c⟩
    · rw [c1, c2]; intro n
      simp [State.admittedRate, n]
    · exact fun _ => c

/-! ## Events on one line -/

/-- Writing line `i` with its admitted rate kept or cleared keeps what a recompute needs. -/
theorem DoseBut.put {i : LineIx} {s : State} (h : DoseBut i s) (l : Line)
    (hd : (s.tables.lines.get i).enabled = false → l.state = .disabled)
    (hx : l.admitted = (s.gate.get i).admitted ∨ l.admitted = 0) : DoseBut i (s.putLine i l) :=
  h.line (s.putLine_line i l) (by simpa using hd) (by
    rw [State.putLine_get]
    rcases hx with hx | hx <;> rw [hx] <;> intro p
    · exact .inl p
    · omega)

/-- An enabled line is a line that is not DISABLED. -/
theorem DoseBut.enabled {i : LineIx} {s : State} (h : DoseBut i s)
    (n : (s.gate.get i).state ≠ .disabled) : ¬ (s.tables.lines.get i).enabled = false :=
  fun e => n (h.disabled i e)

/-- The expiry of the resume timer of an enabled line at rate 0 (R63). -/
theorem State.resumeExpired_dose (s : State) (i : LineIx) (h : DoseBut i s)
    (n : (s.gate.get i).state ≠ .disabled) (z : (s.gate.get i).admitted = 0) :
    DoseOk (s.resumeExpired i) := by
  unfold State.resumeExpired
  extract_lets l
  have e := h.enabled n
  split
  · obtain ⟨f, -, a⟩ := s.excludeDrop_line i
    exact (h.line f (fun x => absurd x e) (by rw [a, z]; intro p; omega)).dose (by rw [a, z]; simp)
  split
  · exact (h.put { l with state := .stopped, resume := 0 } (fun x => absurd x e) (.inl rfl)).dose
      (by simp [l, z])
  · exact State.recompute_dose _ _ _ (h.put _ (fun x => absurd x e) (.inl rfl))

/-- New causes on a line keep the guarantees (R61, R62). -/
theorem State.applyCauses_dose (s : State) (i : LineIx) (new : Causes) (h : DoseOk s) :
    DoseOk (s.applyCauses i new) := by
  unfold State.applyCauses
  extract_lets l cleared requested next resumes delay t u
  split
  · exact h
  rename_i n
  have hb := DoseBut.of (i := i) h
  have ht : DoseBut i t := hb.put _ (fun x => absurd x (hb.enabled n)) (.inl rfl)
  have hs : (t.gate.get i).state = next ∧ (t.gate.get i).admitted = l.admitted := by
    constructor <;> simp [t]
  have hq : QuietFrame t u := by
    unfold u
    split
    · exact t.endProgramme_quiet _ _
    · exact .refl t
  split
  · rename_i r
    refine State.resumeExpired_dose _ i (ht.quiet hq) ?_ ?_ <;> rw [hq.gate]
    · rw [hs.1, r.1.2]; decide
    · rw [hs.2]; exact h.2.1 i (by rw [show (s.gate.get i).state = _ from r.1.1]; decide)
  · exact State.recompute_dose _ _ _ (ht.quiet hq)

/-- A fold of operations that keep the guarantees keeps them. -/
theorem dose_foldl {α : Type} {f : State → α → State} (h : ∀ s a, DoseOk s → DoseOk (f s a))
    (l : List α) (s : State) (d : DoseOk s) : DoseOk (l.foldl f s) := by
  induction l generalizing s with
  | nil => exact d
  | cons a l ih => exact ih _ (h s a d)

theorem State.linesWhere_dose (p : State → LineIx → Prop) [∀ s i, Decidable (p s i)]
    (c : State → LineIx → Causes) (s : State) (h : DoseOk s) :
    DoseOk (s.forLines fun s i => if p s i then s.applyCauses i (c s i) else s) :=
  dose_foldl (fun s i d => by
    split
    · exact s.applyCauses_dose _ _ d
    · exact d) _ s h

/-- Setting every permit from its conditions makes the permits right whatever changed before (R55). -/
theorem State.refreshPermits_dose (s : State) (h1 : DisabledOk s) (h2 : IdleZero s)
    (h3 : ExclusionOk s) : DoseOk s.refreshPermits :=
  ⟨h1, h2, fun i e => by simpa [State.permitDue, State.flowClass, State.modeNow] using e, h3⟩

theorem State.gateFlow_dose (s : State) (c : CircuitIx) (h1 : DisabledOk s) (h2 : IdleZero s)
    (h3 : ExclusionOk s) : DoseOk (s.gateFlow c) := by
  unfold State.gateFlow
  exact State.linesWhere_dose _ _ _ (s.refreshPermits_dose h1 h2 h3)

theorem State.gateReading_dose (s : State) (k : SlotIx) (h : DoseOk s) : DoseOk (s.gateReading k) := by
  unfold State.gateReading
  exact State.linesWhere_dose _ _ s h

theorem State.gateBackwash_dose (s : State) (c : CircuitIx) (h : DoseOk s) :
    DoseOk (s.gateBackwash c) := by
  unfold State.gateBackwash
  exact State.linesWhere_dose _ _ s h

theorem State.gateSegment_dose (s : State) (g : SegIx) (h : DoseOk s) : DoseOk (s.gateSegment g) := by
  unfold State.gateSegment
  exact State.linesWhere_dose _ _ s h

theorem State.gateCirculation_dose (s : State) (c : CircuitIx) (b : Bool) (h : DoseOk s) :
    DoseOk (s.gateCirculation c b) := by
  unfold State.gateCirculation
  exact State.linesWhere_dose _ _ s h

/-- A fault of an enabled line keeps the guarantees (R74). -/
theorem State.faultLine_dose (s : State) (i : LineIx) (r : LineFault) (v : Nat) (h : DoseOk s)
    (n : (s.gate.get i).state ≠ .disabled) : DoseOk (s.faultLine i r v) := by
  unfold State.faultLine
  extract_lets l t
  have hb := DoseBut.of (i := i) h
  have ht : DoseOk t := (hb.put _ (fun x => absurd x (hb.enabled n)) (.inr rfl)).dose (by simp)
  exact (((t.originate_quiet _ _).trans (State.notify_quiet _ _)).trans
    (State.endProgramme_quiet _ _ _)).dose ht

/-- An accepted request of an enabled line keeps the guarantees (R57, R58). -/
theorem State.act_dose (s : State) (w : For) (i : LineIx) (v : Nat) (o : Source) (h : DoseOk s)
    (n : (s.gate.get i).state ≠ .disabled) : DoseOk (s.act w i v o) := by
  have hb := DoseBut.of (i := i) h
  exact State.recompute_dose _ _ _ (hb.put _ (fun x => absurd x (hb.enabled n)) (.inl rfl))

/-- The zero request keeps the guarantees (R59). -/
theorem State.zeroRequest_dose (s : State) (i : LineIx) (h : DoseOk s) : DoseOk (s.zeroRequest i) := by
  have hb := DoseBut.of (i := i) h
  refine State.recompute_dose _ _ _ (hb.put _ (fun x => ?_) (.inl rfl))
  have := h.1.1 i x
  simp [this]

/-- Writing a line's record with its state and admitted rate as they stood keeps the guarantees. -/
theorem State.putLine_dose (s : State) (i : LineIx) (l : Line) (h : DoseOk s)
    (hs : l.state = (s.gate.get i).state) (ha : l.admitted = (s.gate.get i).admitted) :
    DoseOk (s.putLine i l) :=
  ((DoseBut.of h).put l (fun x => hs.trans (h.1.1 i x)) (.inl ha)).dose (by
    rw [State.putLine_get, hs, ha]; exact h.2.1 i)

/-! ## Programmes -/

/-- A request that passed the tests of R56 is for a line that is not DISABLED. -/
theorem State.lineTest_enabled (s : State) (i : LineIx) (v : Nat) (b : Bool)
    (h : s.lineTest i v b = none) : (s.gate.get i).state ≠ .disabled := by
  unfold State.lineTest at h
  dsimp only at h
  repeat' split at h
  all_goals first | contradiction | assumption

theorem State.submit_dose (s : State) (i : LineIx) (w : Which) (r : Nat) (h : DoseOk s) :
    DoseOk (s.submit i w r).1 := by
  unfold State.submit
  split
  · exact h
  rename_i e
  split
  · exact s.putLine_dose _ _ h rfl rfl
  · exact s.act_dose _ _ _ _ h (s.lineTest_enabled _ _ _ e)

theorem State.release_dose (s : State) (i : LineIx) (h : DoseOk s) : DoseOk (s.release i) := by
  unfold State.release
  split
  · exact s.zeroRequest_dose i h
  · exact h

theorem State.endAndRelease_dose (s : State) (i : LineIx) (c : Cause) (h : DoseOk s) :
    DoseOk (s.endAndRelease i c) := State.release_dose _ _ ((s.endProgramme_quiet i c).dose h)

theorem State.beginStep_dose (s : State) (i : LineIx) (w : Which) (n : Nat) (h : DoseOk s) :
    DoseOk (s.beginStep i w n).1 := by
  unfold State.beginStep
  extract_lets r o
  have ho : DoseOk o.1 := State.submit_dose _ _ _ _ ((s.putProg_quiet _ _).dose h)
  split
  · exact (State.notify_quiet _ _).dose ho
  all_goals exact ho

theorem State.startStep_dose (s : State) (i : LineIx) (w : Which) (n : Nat) (h : DoseOk s) :
    DoseOk (s.startStep i w n) := by
  unfold State.startStep
  dsimp only
  split
  · exact State.endAndRelease_dose _ _ _ (s.beginStep_dose i w n h)
  all_goals exact s.beginStep_dose i w n h

theorem State.stepEnded_dose (s : State) (i : LineIx) (p : Prog) (h : DoseOk s) :
    DoseOk (s.stepEnded i p) := by
  unfold State.stepEnded
  extract_lets n
  split
  · exact s.startStep_dose _ _ _ h
  split
  · exact s.startStep_dose _ _ _ h
  · exact s.endAndRelease_dose _ _ h

theorem State.switchProgrammes_dose (s : State) (c : CircuitIx) (h : DoseOk s) :
    DoseOk (s.switchProgrammes c) := by
  unfold State.switchProgrammes State.forLines
  refine dose_foldl (fun s i d => ?_) _ s h
  dsimp only
  split
  · split
    · exact State.startStep_dose _ _ _ _ ((s.putProg_quiet _ _).dose d)
    · exact State.release_dose _ _ ((s.putProg_quiet _ _).dose d)
  · exact d

end Sys2Proof.Machine
end

