-- ==== Sys2Proof/Laws/Wash.lean ====
section
/-!
SUPPORT. What the shared operations of the Backwash Arbiter and of the Backwash Sequencer can do, said once:
beside what the Dose Gate owns they change the filters, the arbiter, the pump with its permit, and the run
hours; they keep the bounds of the queues, the ranks a permutation and the guarantees of the Dose Gate.
-/

namespace Sys2Proof.Machine

open Sys2Proof.Safety

/-- The state with everything blanked that the Arbiter, the Sequencer, the Dose Gate and the Runner may
change. -/
def State.offWash (s : State) : State :=
  { s.offGate with
    pins := { s.offGate.pins with pb := false }
    arbiter := ⟨none, .ofFn ArbFilter.atReset⟩
    seq := { s.seq with filters := .fill ⟨.unused, none, false, none⟩, pumpRun := false }
    mode := { s.mode with retained := { s.mode.retained with runHours := .fill ⟨0, 0⟩ } } }

/-- From `s` to `t` only what those four blocks own has changed, and what holds of it is kept. -/
structure WashFrame (s t : State) : Prop where
  same : t.offWash = s.offWash
  queues : QueuesOk s → QueuesOk t
  ranks : RanksOk s → RanksOk t
  dose : DoseOk s → DoseOk t

namespace WashFrame

theorem refl (s : State) : WashFrame s s := ⟨rfl, id, id, id⟩

theorem trans {s t u : State} (h : WashFrame s t) (k : WashFrame t u) : WashFrame s u :=
  ⟨k.same.trans h.same, k.queues ∘ h.queues, k.ranks ∘ h.ranks, k.dose ∘ h.dose⟩

/-- An operation of the Dose Gate that keeps its guarantees. -/
theorem of_gate {s t : State} (h : GateFrame s t) (d : DoseOk s → DoseOk t) : WashFrame s t where
  same := by simp only [State.offWash, h.same, h.seq, h.mode]
  queues := h.queues
  ranks r := by simpa only [RanksOk, h.arbiter] using r
  dose := d

theorem of_quiet {s t : State} (h : QuietFrame s t) : WashFrame s t := of_gate h.frame h.dose

/-- The Dose Gate's guarantees rest on the lines, the tables, the flow, the mode and the pins they
name. -/
theorem dose_of {s t : State} (h1 : t.gate = s.gate) (h2 : t.tables = s.tables)
    (h3 : t.flow = s.flow) (h4 : t.mode.state = s.mode.state)
    (h5 : t.pins.permits = s.pins.permits) (h6 : t.pins.plantStop = s.pins.plantStop)
    (d : DoseOk s) : DoseOk t := by
  have hp : ∀ i, t.permitDue i = s.permitDue i := fun i => by
    simp only [State.permitDue, State.flowClass, State.modeNow, h1, h2, h3, h4, h6]
  obtain ⟨⟨d1, d2⟩, d3, d4, d5⟩ := d
  refine ⟨⟨fun i => ?_, fun c => ?_⟩, fun i => ?_, fun i => ?_, fun i j => ?_⟩
  · rw [h1, h2]; exact d1 i
  · rw [State.flowClass, h2, h3]; exact d2 c
  · rw [h1]; exact d3 i
  · rw [h5, hp]; exact d4 i
  · rw [h1, h2]; exact d5 i j

section
variable {s t : State} (h : WashFrame s t)
include h

theorem pending : t.pending = s.pending := congrArg (·.pending) h.same
theorem tables : t.tables = s.tables := congrArg (·.tables) h.same
theorem flow : t.flow = s.flow := congrArg (·.flow) h.same
theorem slots : t.slots = s.slots := congrArg (·.slots) h.same
theorem clock : t.clock = s.clock := congrArg (·.clock) h.same
theorem plantStop : t.pins.plantStop = s.pins.plantStop := congrArg (·.pins.plantStop) h.same
theorem keyswitch : t.pins.keyswitch = s.pins.keyswitch := congrArg (·.pins.keyswitch) h.same
theorem lockout : t.pins.lockout = s.pins.lockout := congrArg (·.pins.lockout) h.same
theorem responses : t.ports.responses = s.ports.responses := congrArg (·.ports.responses) h.same
theorem forwarded : t.ports.forwarded = s.ports.forwarded := congrArg (·.ports.forwarded) h.same
theorem store : t.mgmt.store = s.mgmt.store := congrArg (·.mgmt.store) h.same
theorem write : t.mgmt.write = s.mgmt.write := congrArg (·.mgmt.write) h.same
theorem totals : t.runner.totals = s.runner.totals := congrArg (·.runner.totals) h.same
theorem latches : t.runner.latches = s.runner.latches := congrArg (·.runner.latches) h.same
theorem modeState : t.mode.state = s.mode.state := congrArg (·.mode.state) h.same
theorem restart : t.mode.restart = s.mode.restart := congrArg (·.mode.restart) h.same
theorem lockoutFlag : t.mode.retained.lockoutFlag = s.mode.retained.lockoutFlag :=
  congrArg (·.mode.retained.lockoutFlag) h.same
theorem recoveryCount : t.mode.retained.recoveryCount = s.mode.retained.recoveryCount :=
  congrArg (·.mode.retained.recoveryCount) h.same
theorem commissioned : t.mode.retained.commissioned = s.mode.retained.commissioned :=
  congrArg (·.mode.retained.commissioned) h.same
theorem restore : t.seq.restore = s.seq.restore := congrArg (·.seq.restore) h.same
theorem lastPumpEcho : t.seq.lastPumpEcho = s.seq.lastPumpEcho :=
  congrArg (·.seq.lastPumpEcho) h.same
theorem placesTaken : t.placesTaken = s.placesTaken := by
  simp only [State.placesTaken, h.responses, h.write]
theorem modeNow : t.modeNow = s.modeNow := by simp only [State.modeNow, h.modeState]
theorem flowClass (c : CircuitIx) : t.flowClass c = s.flowClass c := by
  simp only [State.flowClass, h.flow]
theorem reading (k : SlotIx) : t.reading k = s.reading k := by simp only [State.reading, h.slots]

/-- A segment port keeps all but its own queue. -/
theorem segment (g : SegIx) :
    { t.ports.segments.get g with own := [] } = { s.ports.segments.get g with own := [] } := by
  simpa [State.offWash, State.offGate] using congrArg (·.ports.segments.get g) h.same
theorem segState (g : SegIx) : t.segState g = s.segState g := congrArg (·.state) (h.segment g)

end

theorem foldl {α : Type} {f : State → α → State} (h : ∀ s a, WashFrame s (f s a)) (l : List α)
    (s : State) : WashFrame s (l.foldl f s) := by
  induction l generalizing s with
  | nil => exact refl s
  | cons a l ih => exact (h s a).trans (ih _)

end WashFrame

/-! ## Writes of one field -/

theorem State.setPb_wash (s : State) (b : Bool) : WashFrame s (s.setPb b) :=
  ⟨rfl, id, id, WashFrame.dose_of rfl rfl rfl rfl rfl rfl⟩

theorem State.setPump_wash (s : State) (b : Bool) : WashFrame s (s.setPump b) :=
  ⟨rfl, id, id, WashFrame.dose_of rfl rfl rfl rfl rfl rfl⟩

theorem State.updFilter_wash (s : State) (f : FilterIx) (h : SeqFilter → SeqFilter) :
    WashFrame s (s.updFilter f h) := ⟨rfl, id, id, WashFrame.dose_of rfl rfl rfl rfl rfl rfl⟩

theorem State.freeArbiter_wash (s : State) : WashFrame s s.freeArbiter :=
  ⟨rfl, id, id, WashFrame.dose_of rfl rfl rfl rfl rfl rfl⟩

theorem State.putRunHours_wash (s : State) (f : FilterIx) (r : RunHours) :
    WashFrame s (s.putRunHours f r) := ⟨rfl, id, id, WashFrame.dose_of rfl rfl rfl rfl rfl rfl⟩

/-- A change of a filter's fields in the Arbiter that keeps its rank. -/
theorem State.updArb_wash (s : State) (f : FilterIx) (h : ArbFilter → ArbFilter)
    (hr : ∀ a, (h a).rank = a.rank := by intro _; rfl) : WashFrame s (s.updArb f h) := by
  refine ⟨rfl, id, fun r => ?_, WashFrame.dose_of rfl rfl rfl rfl rfl rfl⟩
  have e : ∀ g, ((s.updArb f h).arbiter.filters.get g).rank = (s.arbiter.filters.get g).rank := by
    intro g
    rw [(s.updArb_fields f h).2.2.2.2.2.2.2.2.2.1, Table.get_upd]
    split
    · exact hr _
    · rfl
  simpa only [RanksOk, e] using r

theorem State.notify_wash (s : State) (n : Notice) : WashFrame s (s.notify n) :=
  .of_quiet (s.notify_quiet n)

theorem State.originate_wash (s : State) (k : Option (Fin 48)) (v : Nat) :
    WashFrame s (s.originate k v) := .of_quiet (s.originate_quiet k v)

/-! ## Arbiter -/

/-- The rotation keeps the ranks the numbers 0 to 7, each held once (R109, R110). -/
theorem State.rotate_wash (s : State) (f : FilterIx) : WashFrame s (s.rotate f) := by
  refine ⟨rfl, id, fun r => ?_, WashFrame.dose_of rfl rfl rfl rfl rfl rfl⟩
  have e : ∀ g, ((s.rotate f).arbiter.filters.get g).rank =
      if g = f then 0
      else if (s.arbiter.filters.get g).rank < (s.arbiter.filters.get f).rank
        then (s.arbiter.filters.get g).rank + 1 else (s.arbiter.filters.get g).rank := by
    intro g; simp [State.rotate]
  obtain ⟨r1, r2⟩ := r
  refine ⟨fun g => ?_, fun g k h => ?_⟩
  · rw [e]
    have := r1 g; have := r1 f
    split; · omega
    split <;> omega
  · rw [e, e] at h
    have hg := fun h => r2 g f h
    have hk := fun h => r2 k f h
    have hgk := fun h => r2 g k h
    by_cases c1 : g = f <;> by_cases c2 : k = f <;> simp only [c1, c2, if_true, if_false] at h ⊢
    · split at h
      · omega
      · exact absurd (hk (by omega)) c2
    · split at h
      · omega
      · exact absurd (hg (by omega)) c1
    · apply hgk
      have := mt hg c1; have := mt hk c2
      split at h <;> split at h <;> omega

theorem State.dropManual_wash (s : State) (f : FilterIx) : WashFrame s (s.dropManual f) :=
  s.updArb_wash f _

theorem State.putRequests_wash (s : State) (f : FilterIx) (r : RequestSet) :
    WashFrame s (s.putRequests f r) := s.updArb_wash f _

theorem State.rejudgeDp_wash (s : State) (f : FilterIx) : WashFrame s (s.rejudgeDp f) :=
  s.putRequests_wash f _

theorem State.rejudgeHours_wash (s : State) (f : FilterIx) : WashFrame s (s.rejudgeHours f) :=
  s.updArb_wash f _

theorem State.endCompleted_wash (s : State) (f : FilterIx) : WashFrame s (s.endCompleted f) := by
  unfold State.endCompleted
  extract_lets t u
  have ht : WashFrame s t := ((s.putRunHours_wash f _).trans (State.rejudgeHours_wash _ f)).trans
    (State.dropManual_wash _ f)
  have hu : WashFrame s u := (ht.trans (t.updArb_wash f _)).trans
    (State.rejudgeDp_wash _ f)
  exact (hu.trans (u.rotate_wash f)).trans (State.freeArbiter_wash _)

theorem State.endAborted_wash (s : State) (f : FilterIx) : WashFrame s (s.endAborted f) := by
  unfold State.endAborted
  exact ((s.dropManual_wash f).trans (State.updArb_wash _ f _)).trans
    (State.freeArbiter_wash _)

theorem State.endFaulted_wash (s : State) (f : FilterIx) : WashFrame s (s.endFaulted f) := by
  unfold State.endFaulted
  exact (s.dropManual_wash f).trans (State.freeArbiter_wash _)

/-! ## Stages -/

theorem State.putFilterState_wash (s : State) (f : FilterIx) (x : FilterState) :
    WashFrame s (s.putFilterState f x) := by
  unfold State.putFilterState
  exact (s.updFilter_wash f _).trans
    (.of_gate (State.gateBackwash_gate _ _) (State.gateBackwash_dose _ _))

theorem State.unrinsedNotice_wash (s : State) (f : FilterIx) (c : Cause) (g : Stage) :
    WashFrame s (s.unrinsedNotice f c g) := by
  unfold State.unrinsedNotice
  exact (s.updFilter_wash f _).trans (State.notify_wash _ _)

theorem State.beginMove_wash (s : State) (f : FilterIx) (b : Backwash) (o : MoveObject) (v : Nat) :
    WashFrame s (s.beginMove f b o v) := by
  unfold State.beginMove
  extract_lets t
  exact ((s.updFilter_wash f _).trans (t.originate_wash _ _)).trans
    (.of_gate (State.gateBackwash_gate _ _) (State.gateBackwash_dose _ _))

theorem State.enterStage_wash (s : State) (f : FilterIx) (b : Backwash) (g : Stage) :
    WashFrame s (s.enterStage f b g) := by
  unfold State.enterStage
  extract_lets b' t
  have ht : WashFrame s t := by
    unfold t; split
    · exact s.unrinsedNotice_wash _ _ _
    · exact .refl s
  exact ht.trans (t.beginMove_wash _ _ _ _)

theorem State.abort_wash (s : State) (f : FilterIx) (c : AbortCause) : WashFrame s (s.abort f c) := by
  unfold State.abort
  split
  · exact .refl s
  extract_lets u t
  split
  · exact .refl s
  have ht : WashFrame s t := by
    unfold t; split
    · exact ((s.setPb_wash _).trans (State.setPump_wash _ _)).trans (State.originate_wash _ _ _)
    · exact .refl s
  split
  · exact ht.trans (t.enterStage_wash _ _ _)
  split
  · exact ht.trans (t.enterStage_wash _ _ _)
  · exact ht

theorem State.judgeTanks_wash (s : State) (f : FilterIx) : WashFrame s (s.judgeTanks f) := by
  unfold State.judgeTanks
  split
  · split
    · exact s.abort_wash _ _
    · exact .refl s
  · exact .refl s

theorem State.enterWash_wash (s : State) (f : FilterIx) (b : Backwash) :
    WashFrame s (s.enterWash f b) := by
  unfold State.enterWash
  exact (s.enterStage_wash f b _).trans (State.judgeTanks_wash _ _)

theorem State.dwellEnded_wash (s : State) (f : FilterIx) (b : Backwash) :
    WashFrame s (s.dwellEnded f b) := by
  unfold State.dwellEnded
  split
  · exact s.enterWash_wash _ _
  · exact ((s.setPb_wash _).trans (State.setPump_wash _ _)).trans (State.beginMove_wash _ _ _ _ _)
  · exact s.enterStage_wash _ _ _
  · exact (s.updFilter_wash _ _).trans (State.enterStage_wash _ _ _ _)
  all_goals exact .refl s

theorem State.beginDwell_wash (s : State) (f : FilterIx) (b : Backwash) (n : Nat) :
    WashFrame s (s.beginDwell f b n) := by
  unfold State.beginDwell
  split
  · exact s.dwellEnded_wash _ _
  · exact s.putFilterState_wash _ _

theorem State.endBackwash_wash (s : State) (f : FilterIx) (b : Backwash) :
    WashFrame s (s.endBackwash f b) := by
  unfold State.endBackwash
  extract_lets t
  have ht : WashFrame s t := s.putFilterState_wash _ _
  split
  · exact (ht.trans (t.endCompleted_wash f)).trans (State.notify_wash _ _)
  · exact (ht.trans (t.endAborted_wash f)).trans (State.notify_wash _ _)

theorem State.moveConfirmed_wash (s : State) (f : FilterIx) (b : Backwash) (o : MoveObject)
    (v : Nat) : WashFrame s (s.moveConfirmed f b o v) := by
  unfold State.moveConfirmed
  extract_lets c
  split
  · split
    · exact s.enterStage_wash _ _ _
    · exact s.enterWash_wash _ _
  · exact s.beginDwell_wash _ _ _
  · exact ((s.setPb_wash _).trans (State.setPump_wash _ _)).trans (State.beginMove_wash _ _ _ _ _)
  · split
    · exact s.beginDwell_wash _ _ _
    · exact s.enterStage_wash _ _ _
  · exact s.beginDwell_wash _ _ _
  · exact s.beginDwell_wash _ _ _
  · exact s.endBackwash_wash _ _
  all_goals exact .refl s

/-! ## Faults -/

theorem State.noReturnFault_wash (s : State) (f : FilterIx) : WashFrame s (s.noReturnFault f) := by
  unfold State.noReturnFault
  exact ((s.putFilterState_wash _ _).trans (State.endFaulted_wash _ _)).trans (State.notify_wash _ _)

theorem State.lostFault_wash (s : State) (f : FilterIx) (b : Backwash) :
    WashFrame s (s.lostFault f b) := by
  unfold State.lostFault
  extract_lets t u v w
  have ht : WashFrame s t := s.setPb_wash _
  have hu : WashFrame s u := by
    unfold u; split
    · exact ht
    · exact ht.trans (t.originate_wash _ _)
  have hv : WashFrame s v := hu.trans (u.setPump_wash _)
  have hw : WashFrame s w := by
    unfold w; split
    · exact hv.trans (v.unrinsedNotice_wash _ _ _)
    · exact hv
  exact ((hw.trans (w.putFilterState_wash _ _)).trans (State.endFaulted_wash _ _)).trans
    (State.notify_wash _ _)

theorem State.attemptExpired_wash (s : State) (f : FilterIx) : WashFrame s (s.attemptExpired f) := by
  unfold State.attemptExpired
  exact (s.updFilter_wash _ _).trans (State.notify_wash _ _)

theorem State.startAttempt_wash (s : State) (f : FilterIx) : WashFrame s (s.startAttempt f) := by
  unfold State.startAttempt
  exact (s.updFilter_wash _ _).trans (State.originate_wash _ _ _)

/-! ## Grant and reports -/

/-- The end of a pending check keeps everything but the filter's own fields in the Arbiter. -/
theorem State.cancelCheck_fields (s : State) (f : FilterIx) :
    (s.cancelCheck f).seq = s.seq ∧ (s.cancelCheck f).tables = s.tables ∧
      (s.cancelCheck f).pins = s.pins ∧ (s.cancelCheck f).arbiter.busy = s.arbiter.busy := by
  unfold State.cancelCheck; split <;> exact ⟨rfl, rfl, rfl, rfl⟩

theorem State.cancelCheck_wash (s : State) (f : FilterIx) : WashFrame s (s.cancelCheck f) := by
  unfold State.cancelCheck
  split
  · exact (s.updArb_wash _ _).trans (State.rejudgeDp_wash _ f)
  · exact .refl s

theorem State.grant_wash (s : State) (f : FilterIx) : WashFrame s (s.grant f) := by
  unfold State.grant
  extract_lets a b t u v
  have ht : WashFrame s t := ⟨rfl, id, id, WashFrame.dose_of rfl rfl rfl rfl rfl rfl⟩
  exact ((ht.trans (t.cancelCheck_wash f)).trans (u.beginMove_wash _ _ _ _)).trans
    (v.notify_wash _)

/-- What an arbitration may do: nothing, or a grant (R106). -/
theorem State.arbitrate_cases (s : State) :
    s.arbitrate = s ∨ s.arbiter.busy = none ∧ ∃ f, s.winner = some f ∧ s.arbitrate = s.grant f := by
  unfold State.arbitrate
  split
  · exact .inl rfl
  · split
    · exact .inl rfl
    · exact .inr ⟨by assumption, _, by assumption, rfl⟩

theorem State.arbitrate_wash (s : State) : WashFrame s s.arbitrate := by
  rcases s.arbitrate_cases with h | ⟨-, f, -, h⟩ <;> rw [h]
  · exact .refl s
  · exact s.grant_wash f

theorem State.seqFlow_wash (s : State) (c : CircuitIx) : WashFrame s (s.seqFlow c) := by
  unfold State.seqFlow State.forFilters
  split
  · refine WashFrame.foldl (fun s f => ?_) _ s
    split
    · exact s.abort_wash _ _
    · exact .refl s
  · exact .refl s

theorem State.seqCutOff_wash (s : State) (g : SegIx) : WashFrame s (s.seqCutOff g) := by
  unfold State.seqCutOff State.forFilters
  refine WashFrame.foldl (fun s f => ?_) _ s
  split
  · exact .refl s
  · split
    · exact s.lostFault_wash _ _
    · split
      · exact s.abort_wash _ _
      · exact .refl s

theorem State.reportSlot_wash (s : State) (k : SlotIx) (v : Option Nat) :
    WashFrame s (s.reportSlot k v) := by
  unfold State.reportSlot
  split
  · exact .refl s
  split
  · exact .of_gate (s.gateReading_gate k) (s.gateReading_dose k)
  split
  · exact (s.rejudgeDp_wash _).trans (State.arbitrate_wash _)
  · exact (WashFrame.foldl State.judgeTanks_wash _ s).trans (State.arbitrate_wash _)

theorem State.reportSegment_wash (s : State) (g : SegIx) : WashFrame s (s.reportSegment g) := by
  unfold State.reportSegment
  have ht : WashFrame s (s.gateSegment g) := .of_gate (s.gateSegment_gate g) (s.gateSegment_dose g)
  refine WashFrame.trans ?_ (State.arbitrate_wash _)
  split
  · exact ht.trans (State.seqCutOff_wash _ _)
  · exact ht

theorem State.readingFault_wash (s : State) (k : SlotIx) (c : Cause) (v : Nat) :
    WashFrame s (s.readingFault k c v) := s.notify_wash _

/-- The report of a changed class: the guarantees of the Dose Gate hold after it, the permits among them
(R55, R64, R124). -/
theorem State.reportClass_frame (s : State) (c : CircuitIx) :
    (s.reportClass c).offWash = s.offWash ∧ (QueuesOk s → QueuesOk (s.reportClass c)) ∧
      (RanksOk s → RanksOk (s.reportClass c)) ∧
      (DisabledOk s → IdleZero s → ExclusionOk s → DoseOk (s.reportClass c)) := by
  unfold State.reportClass
  have h1 := State.seqFlow_wash (s.gateFlow c) c
  have h2 := s.gateFlow_gate c
  refine ⟨h1.same.trans ?_, h1.queues ∘ h2.queues, fun r => h1.ranks ?_,
    fun a b d => ?_⟩
  · simp only [State.offWash, h2.same, h2.seq, h2.mode]
  · simpa only [RanksOk, h2.arbiter] using r
  · have k := s.gateFlow_dose c a b d
    exact h1.dose k

/-- An evaluation changes, beside the flags, what the Runner and the Arbiter own (R159, R160). -/
theorem State.evaluate_wash (s : State) :
    WashFrame (s.updClock fun c => { c with
      openFlags := .ofFn s.openDue
      washFlags := .ofFn s.washDue }) s.evaluate := by
  unfold State.evaluate
  extract_lets t u
  have hu : WashFrame t u := by
    unfold u; split
    · refine WashFrame.foldl (fun x c => ?_) _ t
      split
      · exact .refl x
      · exact .of_gate (x.switchProgrammes_gate c) (x.switchProgrammes_dose c)
    · exact .refl t
  split
  · exact hu
  · exact hu.trans u.arbitrate_wash

end Sys2Proof.Machine
end

