-- ==== Sys2Proof/Laws/Mode.lean ====
section
/-!
SUPPORT. What a change of mode can do, said once: the new mode stands, every block keeps what the report of
a mode does not touch, substitutes end and are never set, and the guarantees hold after it.
-/

namespace Sys2Proof.Machine

open Sys2Proof.Safety

/-- The state with everything blanked that the end of a substitute may change. -/
def State.offSlots (s : State) : State :=
  { s.offWash with slots := s.slots.mapIdx fun _ x => { x with sub := none } }

/-- From `s` to `t` only what the Arbiter, the Sequencer, the Dose Gate and the Runner own has changed, and
substitutes have ended. -/
structure SlotsFrame (s t : State) : Prop where
  same : t.offSlots = s.offSlots
  subs : ∀ k, (t.slots.get k).sub = (s.slots.get k).sub ∨ (t.slots.get k).sub = none
  queues : QueuesOk s → QueuesOk t
  ranks : RanksOk s → RanksOk t
  dose : DoseOk s → DoseOk t

namespace SlotsFrame

theorem refl (s : State) : SlotsFrame s s := ⟨rfl, fun _ => .inl rfl, id, id, id⟩

theorem trans {s t u : State} (h : SlotsFrame s t) (k : SlotsFrame t u) : SlotsFrame s u where
  same := k.same.trans h.same
  subs i := by
    rcases k.subs i with e | e
    · rw [e]; exact h.subs i
    · exact .inr e
  queues := k.queues ∘ h.queues
  ranks := k.ranks ∘ h.ranks
  dose := k.dose ∘ h.dose

theorem of_wash {s t : State} (h : WashFrame s t) : SlotsFrame s t where
  same := by simp only [State.offSlots, h.same, h.slots]
  subs k := by rw [h.slots]; exact .inl rfl
  queues := h.queues
  ranks := h.ranks
  dose := h.dose

section
variable {s t : State} (h : SlotsFrame s t)
include h

theorem pending : t.pending = s.pending := congrArg (·.pending) h.same
theorem tables : t.tables = s.tables := congrArg (·.tables) h.same
theorem flow : t.flow = s.flow := congrArg (·.flow) h.same
theorem clock : t.clock = s.clock := congrArg (·.clock) h.same
theorem plantStop : t.pins.plantStop = s.pins.plantStop := congrArg (·.pins.plantStop) h.same
theorem keyswitch : t.pins.keyswitch = s.pins.keyswitch := congrArg (·.pins.keyswitch) h.same
theorem lockout : t.pins.lockout = s.pins.lockout := congrArg (·.pins.lockout) h.same
theorem responses : t.ports.responses = s.ports.responses := congrArg (·.ports.responses) h.same
theorem forwarded : t.ports.forwarded = s.ports.forwarded := congrArg (·.ports.forwarded) h.same
theorem store : t.mgmt.store = s.mgmt.store := congrArg (·.mgmt.store) h.same
theorem write : t.mgmt.write = s.mgmt.write := congrArg (·.mgmt.write) h.same
theorem totals : t.runner.totals = s.runner.totals := congrArg (·.runner.totals) h.same
theorem latches : t.runner.latches = s.runner.latches := congrArg (·.runner.latches) h.same
theorem modeState : t.mode.state = s.mode.state := congrArg (·.mode.state) h.same
theorem restart : t.mode.restart = s.mode.restart := congrArg (·.mode.restart) h.same
theorem lockoutFlag : t.mode.retained.lockoutFlag = s.mode.retained.lockoutFlag :=
  congrArg (·.mode.retained.lockoutFlag) h.same
theorem recoveryCount : t.mode.retained.recoveryCount = s.mode.retained.recoveryCount :=
  congrArg (·.mode.retained.recoveryCount) h.same
theorem restore : t.seq.restore = s.seq.restore := congrArg (·.seq.restore) h.same
theorem modeNow : t.modeNow = s.modeNow := by simp only [State.modeNow, h.modeState]
theorem placesTaken : t.placesTaken = s.placesTaken := by
  simp only [State.placesTaken, h.responses, h.write]

end

theorem foldl {α : Type} {f : State → α → State} (h : ∀ s a, SlotsFrame s (f s a)) (l : List α)
    (s : State) : SlotsFrame s (l.foldl f s) := by
  induction l generalizing s with
  | nil => exact refl s
  | cons a l ih => exact (h s a).trans (ih _)

end SlotsFrame

/-- The end of a substitute: slot `k` holds none after it (R44-R46). -/
theorem State.endSubstitute_slots (s : State) (k : SlotIx) (c : Cause) :
    SlotsFrame s (s.endSubstitute k c) ∧ ((s.endSubstitute k c).slots.get k).sub = none := by
  unfold State.endSubstitute
  extract_lets x
  split
  · exact ⟨.refl s, by assumption⟩
  extract_lets t u
  have h0 : SlotsFrame s (s.putSlot k { x with sub := none }) := by
    refine ⟨?_, fun j => ?_, id, id, WashFrame.dose_of rfl rfl rfl rfl rfl rfl⟩
    · simp only [State.offSlots, State.putSlot_fields]
      have : (s.slots.set k { x with sub := none }).mapIdx (fun _ y => { y with sub := none })
          = s.slots.mapIdx (fun _ y => { y with sub := none }) :=
        Table.mapIdx_upd s.slots k (fun _ => { x with sub := none }) _ rfl
      rw [this]; rfl
    · rw [(s.putSlot_fields _ _).2.2.2.2.2.2.1, Table.get_set]
      split
      · exact .inr rfl
      · exact .inl rfl
  have ht : WashFrame (s.putSlot k { x with sub := none }) t := State.notify_wash _ _
  have hu : WashFrame t u := by
    unfold u; split
    · exact t.readingFault_wash _ _ _
    · exact t.readingFault_wash _ _ _
    all_goals exact .refl t
  have hw := (ht.trans hu).trans (u.reportSlot_wash k (some (Substitute.value (by assumption))))
  refine ⟨h0.trans (.of_wash hw), ?_⟩
  rw [hw.slots, (s.putSlot_fields _ _).2.2.2.2.2.2.1, Table.get_set_self]

/-! ## The reports of a new mode -/

theorem State.gateMode_wash (s : State) (old : Mode) : WashFrame s (s.gateMode old) := by
  unfold State.gateMode State.forLines
  refine WashFrame.foldl (fun s i => ?_) _ s
  extract_lets t
  have ht : WashFrame s t := .of_gate (s.applyCauses_gate i _) (s.applyCauses_dose i _)
  split
  · split
    · exact ht.trans (.of_gate (t.zeroRequest_gate i) (t.zeroRequest_dose i))
    · exact ht
  split
  · exact ht.trans (.of_gate (t.putLine_gate i _) fun d => t.putLine_dose i _ d rfl rfl)
  · exact ht

theorem State.runnerMode_wash (s : State) : WashFrame s s.runnerMode := by
  unfold State.runnerMode State.forLines
  extract_lets _ t
  have ht : WashFrame s t := .of_quiet ⟨.of_ports rfl rfl rfl, rfl, rfl⟩
  split
  · refine ht.trans (WashFrame.foldl (fun s i => ?_) _ t)
    split
    · exact .of_gate (s.startStep_gate i _ _) (s.startStep_dose i _ _)
    · exact .refl s
  · exact ht

theorem State.seqMode_wash (s : State) : WashFrame s s.seqMode := by
  unfold State.seqMode State.forFilters
  split
  · exact WashFrame.foldl (fun s f => s.abort_wash f _) _ s
  · exact .refl s

theorem State.arbMode_wash (s : State) (old : Mode) : WashFrame s (s.arbMode old) := by
  unfold State.arbMode State.forFilters
  refine WashFrame.trans ?_ (State.arbitrate_wash _)
  split
  · exact WashFrame.foldl State.rejudgeHours_wash _ s
  · exact .refl s

/-- A mode in whose entry every substitute ends (R46). -/
def Mode.dropsSubstitutes : Mode → Bool
  | .fallback | .hold | .lockout => true
  | .startup | .commission | .supervised => false

theorem State.readingMode_slots (s : State) :
    SlotsFrame s s.readingMode ∧
      (s.modeNow.dropsSubstitutes = true → ∀ k, (s.readingMode.slots.get k).sub = none) := by
  have key : ∀ (l : List SlotIx) (t : State),
      SlotsFrame t (l.foldl (fun t k => t.endSubstitute k .mode) t) ∧
        ∀ k ∈ l, ((l.foldl (fun t k => t.endSubstitute k .mode) t).slots.get k).sub = none := by
    intro l
    induction l with
    | nil => exact fun t => ⟨.refl t, by simp⟩
    | cons j l ih =>
      intro t
      have h := t.endSubstitute_slots j .mode
      have k := ih (t.endSubstitute j .mode)
      refine ⟨h.1.trans k.1, fun i hi => ?_⟩
      rcases List.mem_cons.1 hi with e | e
      · subst e
        rcases k.1.subs i with c | c
        · exact c.trans h.2
        · exact c
      · exact k.2 i e
  unfold State.readingMode
  cases s.modeNow with
  | startup => exact ⟨.refl s, fun h => by cases h⟩
  | commission => exact ⟨.refl s, fun h => by cases h⟩
  | supervised => exact ⟨.refl s, fun h => by cases h⟩
  | fallback => exact ⟨(key _ s).1, fun _ k => (key _ s).2 k (List.mem_finRange k)⟩
  | hold => exact ⟨(key _ s).1, fun _ k => (key _ s).2 k (List.mem_finRange k)⟩
  | lockout => exact ⟨(key _ s).1, fun _ k => (key _ s).2 k (List.mem_finRange k)⟩

/-! ## The change -/

/-- From `s` to `t` the mode has changed to `new`. -/
structure ModeFrame (s t : State) (new : ModeState) : Prop where
  mode : t.mode.state = new
  frame : SlotsFrame { s with mode := { s.mode with state := new } } t
  ended : new.mode.dropsSubstitutes = true → ∀ k, (t.slots.get k).sub = none
  queues : QueuesOk s → QueuesOk t
  ranks : RanksOk s → RanksOk t
  dose : DisabledOk s → IdleZero s → ExclusionOk s → DoseOk t

/-- A change of mode (R135): what stands after it. -/
theorem State.changeMode_frame (s : State) (new : ModeState) (c : Cause) :
    ModeFrame s (s.changeMode new c) new := by
  unfold State.changeMode
  extract_lets old _ t u v w
  have hv : WashFrame u v := by
    unfold v; split
    · exact u.setPb_wash _
    · exact .refl u
  have hw : WashFrame u w := hv.trans (v.notify_wash _)
  have ha := (hw.trans (w.gateMode_wash old)).trans (State.runnerMode_wash _)
  have hb := State.readingMode_slots (w.gateMode old).runnerMode
  have hc := (State.seqMode_wash ((w.gateMode old).runnerMode).readingMode).trans
    (State.arbMode_wash _ old)
  have hall := ((SlotsFrame.of_wash ha).trans hb.1).trans (.of_wash hc)
  have hm : ((w.gateMode old).runnerMode).modeNow = new.mode := by rw [ha.modeNow]; rfl
  refine ⟨hall.modeState, ⟨hall.same, hall.subs, hall.queues, hall.ranks, fun d => ?_⟩,
    fun e k => ?_, hall.queues, hall.ranks, fun d1 d2 d3 => ?_⟩
  · exact hall.dose (t.refreshPermits_dose d.1 d.2.1 d.2.2.2)
  · rw [hc.slots]; exact hb.2 (by rw [hm]; exact e) k
  · exact hall.dose (t.refreshPermits_dose d1 d2 d3)

end Sys2Proof.Machine
end

