-- ==== Sys2Proof/Laws/Backwash.lean ====
section
/-!
SUPPORT. The guarantees of the Backwash Sequencer (00_scope) under the shared operations: who is in BACKWASH
holds the grant, and PB is on only in WASH.
-/

namespace Sys2Proof.Machine

open Sys2Proof.Safety

/-- The guarantees rest on the filters' states and attempts, the grant, the assignments, and the pump. -/
theorem backwash_of {s t : State} (h1 : t.seq.filters = s.seq.filters)
    (h2 : t.arbiter.busy = s.arbiter.busy) (h3 : t.tables.filters = s.tables.filters)
    (h4 : t.pins.pb = true → s.pins.pb = true ∧ t.seq.pumpRun = s.seq.pumpRun ∧
      t.pins.plantStop = s.pins.plantStop)
    (d : BackwashOk s) : BackwashOk t := by
  have hb : ∀ f, t.backwashOf f = s.backwashOf f := fun f => by simp only [State.backwashOf, h1]
  obtain ⟨d1, d2, d3⟩ := d
  refine ⟨fun f => ?_, fun f => ?_, fun p => ?_⟩
  · rw [hb, h2]; exact d1 f
  · rw [hb, h1, h3]; exact d2 f
  · obtain ⟨p1, p2, p3⟩ := h4 p
    rw [p2, p3]; simpa only [hb] using d3 p1

/-- An operation of the Dose Gate does not touch them. -/
theorem GateFrame.backwash {s t : State} (h : GateFrame s t) (d : BackwashOk s) : BackwashOk t :=
  backwash_of (by rw [h.seq]) (by rw [h.arbiter]) (by rw [h.tables])
    (fun p => ⟨by rwa [h.pb] at p, by rw [h.seq], h.plantStop⟩) d

/-- Filter `f` holds the grant and is in the backwash `b`; PB is off or may be on. -/
structure Washing (s : State) (f : FilterIx) (b : Backwash) : Prop where
  grant : GrantOk s
  attempts : AttemptsOk s
  mine : s.backwashOf f = some b

namespace Washing

variable {s t : State} {f : FilterIx} {b : Backwash}

theorem of (h : BackwashOk s) (e : s.backwashOf f = some b) : Washing s f b := ⟨h.1, h.2.1, e⟩

/-- No other filter is in BACKWASH (R116). -/
theorem others (h : Washing s f b) {g : FilterIx} (n : g ≠ f) : s.backwashOf g = none := by
  by_contra c
  have h1 := (h.grant g).1 (Option.isSome_iff_ne_none.2 c)
  have h2 := (h.grant f).1 (by rw [h.mine]; rfl)
  rw [h1] at h2; exact n (Option.some.inj h2)

theorem state (h : Washing s f b) : (s.seq.filters.get f).state = .backwash b := by
  have := h.mine
  unfold State.backwashOf at this
  cases e : (s.seq.filters.get f).state <;> rw [e] at this <;>
    simp only [FilterState.backwash?, Option.some.injEq, reduceCtorEq] at this
  rw [this]

theorem attempt (h : Washing s f b) : (s.seq.filters.get f).attempt = none := by
  by_contra c
  have := ((h.attempts f).1 (Option.isSome_iff_ne_none.2 c)).1
  rw [h.mine] at this; cases this

theorem assigned (h : Washing s f b) : ¬ (s.tables.filters.get f).assigned = false := by
  intro c
  have := ((h.attempts f).2 c).1
  rw [h.state] at this; cases this

/-- PB is off while the filter in BACKWASH is not at the pump of WASH (R120). -/
theorem pb_off (h : BackwashOk s) (e : s.backwashOf f = some b) (w : washing b = false) :
    s.pins.pb = false := by
  by_contra c
  obtain ⟨-, -, g, hg⟩ := h.2.2 (by simpa using c)
  have hw := Washing.of h e
  by_cases n : g = f
  · rw [n, e] at hg; simp [w] at hg
  · rw [hw.others n] at hg; simp at hg

/-- With PB off, or its conditions met, the guarantees hold. -/
theorem ok (h : Washing s f b)
    (p : s.pins.pb = true → s.seq.pumpRun = true ∧ s.pins.plantStop = false ∧ washing b = true) :
    BackwashOk s :=
  ⟨h.grant, h.attempts, fun e => ⟨(p e).1, (p e).2.1, f, by rw [h.mine]; exact (p e).2.2⟩⟩

theorem quiet (h : Washing s f b) (h1 : t.seq.filters = s.seq.filters)
    (h2 : t.arbiter.busy = s.arbiter.busy) (h3 : t.tables.filters = s.tables.filters) :
    Washing t f b := by
  have hb : ∀ f, t.backwashOf f = s.backwashOf f := fun f => by simp only [State.backwashOf, h1]
  refine ⟨fun g => ?_, fun g => ?_, ?_⟩
  · rw [hb, h2]; exact h.grant g
  · rw [hb, h1, h3]; exact h.attempts g
  · rw [hb]; exact h.mine

theorem gate (h : Washing s f b) (g : GateFrame s t) : Washing t f b :=
  h.quiet (by rw [g.seq]) (by rw [g.arbiter]) (by rw [g.tables])

/-- A filter's other fields change. -/
theorem updFilter (h : Washing s f b) (k : SeqFilter → SeqFilter)
    (k1 : ∀ q, (k q).state = q.state := by intro _; rfl)
    (k2 : ∀ q, (k q).attempt = q.attempt := by intro _; rfl) : Washing (s.updFilter f k) f b := by
  have e : ∀ g, ((s.updFilter f k).seq.filters.get g).state = (s.seq.filters.get g).state ∧
      ((s.updFilter f k).seq.filters.get g).attempt = (s.seq.filters.get g).attempt := by
    intro g
    simp only [State.updFilter_fields, Table.get_upd]
    split
    · exact ⟨k1 _, k2 _⟩
    · exact ⟨rfl, rfl⟩
  have hb : ∀ g, (s.updFilter f k).backwashOf g = s.backwashOf g := fun g => by
    simp only [State.backwashOf, (e g).1]
  refine ⟨fun g => ?_, fun g => ?_, ?_⟩
  · rw [hb]; exact h.grant g
  · rw [hb, (e g).1, (e g).2]; exact h.attempts g
  · rw [hb]; exact h.mine

/-- The backwash of the filter becomes `c`. -/
theorem write (h : Washing s f b) (c : Backwash) :
    Washing (s.updFilter f fun q => { q with state := .backwash c }) f c := by
  have e : ∀ g, ((s.updFilter f fun q => { q with state := .backwash c }).seq.filters.get g) =
      if g = f then { s.seq.filters.get g with state := .backwash c } else s.seq.filters.get g := by
    intro g; simp only [State.updFilter_fields, Table.get_upd]
  refine ⟨fun g => ?_, fun g => ?_, ?_⟩
  · have hg := h.grant g
    simp only [State.backwashOf, e] at hg ⊢
    split
    · rename_i n; subst n
      simpa [FilterState.backwash?, h.state] using hg
    · exact hg
  · have hg := h.attempts g
    simp only [State.backwashOf, e] at hg ⊢
    split
    · rename_i n; subst n
      exact ⟨fun x => by simp [h.attempt] at x, fun x => absurd x h.assigned⟩
    · exact hg
  · simp only [State.backwashOf, e, if_true, FilterState.backwash?]

/-- The same, with the report to the Dose Gate. -/
theorem put (h : Washing s f b) (c : Backwash) : Washing (s.putFilterState f (.backwash c)) f c := by
  unfold State.putFilterState
  exact (h.write c).gate (State.gateBackwash_gate _ _)

theorem beginMove (h : Washing s f b) (c : Backwash) (o : MoveObject) (v : Nat) :
    ∃ n, Washing (s.beginMove f c o v) f { c with step := .move o v n } := by
  refine ⟨(s.tables.filters.get f).travelLimit, ?_⟩
  unfold State.beginMove
  exact ((h.write { c with step := .move o v (s.tables.filters.get f).travelLimit }).gate
    (State.originate_gate _ _ _)).gate (State.gateBackwash_gate _ _)

end Washing

/-! ## What the operations do to the pump -/

/-- From `s` to `t` the pump, its permit and the plant stop input have not changed. -/
structure PumpSame (s t : State) : Prop where
  pb : t.pins.pb = s.pins.pb
  run : t.seq.pumpRun = s.seq.pumpRun
  stop : t.pins.plantStop = s.pins.plantStop

theorem PumpSame.trans {s t u : State} (h : PumpSame s t) (k : PumpSame t u) : PumpSame s u :=
  ⟨k.pb.trans h.pb, k.run.trans h.run, k.stop.trans h.stop⟩

theorem GateFrame.pump {s t : State} (h : GateFrame s t) : PumpSame s t :=
  ⟨h.pb, by rw [h.seq], h.plantStop⟩

theorem State.putFilterState_pump (s : State) (f : FilterIx) (x : FilterState) :
    PumpSame s (s.putFilterState f x) := by
  unfold State.putFilterState
  have h : PumpSame s (s.updFilter f fun q => { q with state := x }) := ⟨rfl, rfl, rfl⟩
  exact h.trans (State.gateBackwash_gate _ _).pump

theorem State.beginMove_pump (s : State) (f : FilterIx) (b : Backwash) (o : MoveObject) (v : Nat) :
    PumpSame s (s.beginMove f b o v) := by
  unfold State.beginMove
  extract_lets t
  have h : PumpSame s t := ⟨rfl, rfl, rfl⟩
  exact (h.trans (t.originate_gate _ _).pump).trans (State.gateBackwash_gate _ _).pump

/-- A move begins with PB off, or with PB on for the start of the pump. -/
theorem State.beginMove_backwash (s : State) (f : FilterIx) (b c : Backwash) (o : MoveObject)
    (v : Nat) (h : Washing s f b)
    (p : s.pins.pb = true → s.seq.pumpRun = true ∧ s.pins.plantStop = false ∧
      ∀ n, washing { c with step := .move o v n } = true) :
    BackwashOk (s.beginMove f c o v) ∧
      ∃ n, (s.beginMove f c o v).backwashOf f = some { c with step := .move o v n } := by
  obtain ⟨n, hn⟩ := h.beginMove c o v
  have q := s.beginMove_pump f c o v
  refine ⟨hn.ok fun e => ?_, n, hn.mine⟩
  rw [q.pb] at e
  rw [q.run, q.stop]
  exact ⟨(p e).1, (p e).2.1, (p e).2.2 n⟩

/-- A stage is entered with PB off. -/
theorem State.enterStage_backwash (s : State) (f : FilterIx) (b c : Backwash) (g : Stage)
    (h : Washing s f b) (p : s.pins.pb = false) :
    BackwashOk (s.enterStage f c g) ∧ (s.enterStage f c g).pins.pb = false ∧
      ∃ d, (s.enterStage f c g).backwashOf f = some d ∧ d.stage = g := by
  unfold State.enterStage
  extract_lets c' t
  have ht : Washing t f b ∧ t.pins.pb = false := by
    unfold t; split
    · unfold State.unrinsedNotice
      exact ⟨(h.updFilter _).gate (State.notify_gate _ _), by simpa using p⟩
    · exact ⟨h, p⟩
  obtain ⟨k, n, hn⟩ := t.beginMove_backwash f b c' .valves g.position ht.1 (by simp [ht.2])
  exact ⟨k, by rw [(t.beginMove_pump _ _ _ _).pb]; exact ht.2, _, hn, rfl⟩

/-- An abort keeps the guarantees: PB goes off with the pump (R125). -/
theorem State.abort_backwash (s : State) (f : FilterIx) (c : AbortCause) (h : BackwashOk s) :
    BackwashOk (s.abort f c) := by
  unfold State.abort
  split
  · exact h
  rename_i b e
  extract_lets u t
  split
  · exact h
  have ht : Washing t f b ∧ t.pins.pb = false := by
    have hw := Washing.of h e
    unfold t; split
    · refine ⟨Washing.gate (hw.quiet ?_ ?_ ?_) (State.originate_gate u _ _), ?_⟩ <;>
        first | rfl | exact (State.originate_gate u _ _).pb
    · rename_i r
      refine ⟨hw, ?_⟩
      by_contra x
      exact r (h.2.2 (by simpa using x)).1
  split
  · exact (t.enterStage_backwash f b _ _ ht.1 ht.2).1
  split
  · exact (t.enterStage_backwash f b _ _ ht.1 ht.2).1
  · exact ht.1.ok (by simp [ht.2])

theorem State.judgeTanks_backwash (s : State) (f : FilterIx) (h : BackwashOk s) :
    BackwashOk (s.judgeTanks f) := by
  unfold State.judgeTanks
  split
  · split
    · exact s.abort_backwash _ _ h
    · exact h
  · exact h

theorem State.enterWash_backwash (s : State) (f : FilterIx) (b c : Backwash) (h : Washing s f b)
    (p : s.pins.pb = false) : BackwashOk (s.enterWash f c) := by
  unfold State.enterWash
  exact State.judgeTanks_backwash _ _ (s.enterStage_backwash f b c .wash h p).1

/-- The end of a dwell keeps the guarantees: PB goes off at the end of the wash dwell (R119, R120). -/
theorem State.dwellEnded_backwash (s : State) (f : FilterIx) (b : Backwash) (h : BackwashOk s)
    (e : s.backwashOf f = some b) : BackwashOk (s.dwellEnded f b) := by
  have hw := Washing.of h e
  have off : b.stage ≠ .wash → s.pins.pb = false := fun n =>
    Washing.pb_off h e (by simp [washing, n])
  unfold State.dwellEnded
  split <;> rename_i g
  · exact s.enterWash_backwash f b b hw (off (by rw [g]; decide))
  · have k : Washing ((s.setPb false).setPump false) f b := hw.quiet rfl rfl rfl
    exact (State.beginMove_backwash _ f b b .pump 0 k (by simp)).1
  · exact (s.enterStage_backwash f b b _ hw (off (by rw [g]; decide))).1
  · have k := hw.updFilter fun q => { q with unrinsed := false }
    have o : (s.updFilter f fun q => { q with unrinsed := false }).pins.pb = false :=
      off (by rw [g]; decide)
    exact (State.enterStage_backwash _ f b _ _ k o).1
  all_goals exact h

theorem State.beginDwell_backwash (s : State) (f : FilterIx) (b : Backwash) (n : Nat)
    (h : BackwashOk s) (e : s.backwashOf f = some b) : BackwashOk (s.beginDwell f b n) := by
  unfold State.beginDwell
  split
  · exact s.dwellEnded_backwash f b h e
  · refine ((Washing.of h e).put _).ok fun p => ?_
    have q := s.putFilterState_pump f (.backwash { b with step := .dwell n })
    rw [q.pb] at p
    obtain ⟨p1, p2, -⟩ := h.2.2 p
    refine ⟨by rw [q.run]; exact p1, by rw [q.stop]; exact p2, ?_⟩
    by_contra w
    have : washing b = false := by
      by_contra w'
      simp only [washing, Bool.and_eq_true, beq_iff_eq, Bool.not_eq_false, and_true] at w w'
      exact w w'.1
    simp [Washing.pb_off h e this] at p

/-- A report of a filter's state leaves the other filters as they stand. -/
theorem State.putFilterState_filters (s : State) (f : FilterIx) (x : FilterState) (g : FilterIx) :
    (s.putFilterState f x).seq.filters.get g =
      if g = f then { s.seq.filters.get g with state := x } else s.seq.filters.get g := by
  unfold State.putFilterState
  rw [(State.gateBackwash_gate _ _).seq]
  simp only [State.updFilter_fields, Table.get_upd]

/-- The end of a backwash: no filter is in BACKWASH and PB is off (R108, R116). -/
theorem State.ended_backwash (s m t : State) (f : FilterIx) (b : Backwash) (x : FilterState)
    (h : Washing s f b) (p : s.pins.pb = false) (hx : x.backwash? = none)
    (hm : m = s.putFilterState f x)
    (ht : t.seq = m.seq ∧ t.tables = m.tables ∧ t.pins = m.pins ∧ t.arbiter.busy = none) :
    BackwashOk t := by
  have h1 : ∀ g, t.seq.filters.get g =
      if g = f then { s.seq.filters.get g with state := x } else s.seq.filters.get g := fun g => by
    rw [ht.1, hm]; exact s.putFilterState_filters f x g
  have h3 : t.tables.filters = s.tables.filters := by
    rw [ht.2.1, hm, (s.putFilterState_wash f x).tables]
  have h4 : t.pins.pb = false := by rw [ht.2.2.1, hm, (s.putFilterState_pump f x).pb]; exact p
  have hb : ∀ g, t.backwashOf g = none := fun g => by
    unfold State.backwashOf
    rw [h1]; split
    · exact hx
    · rename_i n; exact h.others n
  refine ⟨fun g => by simp [hb, ht.2.2.2], fun g => ?_, by simp [h4]⟩
  rw [hb, h1, h3]
  split
  · rename_i n; subst n
    exact ⟨fun y => by simp [h.attempt] at y, fun y => absurd y h.assigned⟩
  · have := h.attempts g
    exact ⟨fun y => ⟨rfl, (this.1 y).2⟩, this.2⟩

/-- The Arbiter's part in each of the three ends (R108): FREE, with the filters, the tables and the pins as
they stand. -/
theorem State.ends_keep (s : State) (f : FilterIx) :
    ((s.endCompleted f).seq = s.seq ∧ (s.endCompleted f).tables = s.tables ∧
      (s.endCompleted f).pins = s.pins ∧ (s.endCompleted f).arbiter.busy = none) ∧
    ((s.endAborted f).seq = s.seq ∧ (s.endAborted f).tables = s.tables ∧
      (s.endAborted f).pins = s.pins ∧ (s.endAborted f).arbiter.busy = none) ∧
    ((s.endFaulted f).seq = s.seq ∧ (s.endFaulted f).tables = s.tables ∧
      (s.endFaulted f).pins = s.pins ∧ (s.endFaulted f).arbiter.busy = none) := by
  simp only [State.endCompleted, State.endAborted, State.endFaulted, State.rotate, State.rejudgeDp,
    State.rejudgeHours, State.putRequests, State.dropManual, State.freeArbiter_fields,
    State.updArb_fields, State.putRunHours_fields, and_self]

/-- SERVICE confirmed in RETURN ends the backwash (R122, R128). -/
theorem State.endBackwash_backwash (s : State) (f : FilterIx) (b : Backwash) (h : BackwashOk s)
    (e : s.backwashOf f = some b) (g : b.stage = .return) : BackwashOk (s.endBackwash f b) := by
  have hw := Washing.of h e
  have off := Washing.pb_off h e (by simp [washing, g])
  unfold State.endBackwash
  extract_lets t
  split
  · have k := s.ended_backwash t _ f b .inService hw off rfl rfl (t.ends_keep f).1
    exact ((t.endCompleted f).notify_gate _).backwash k
  · have k := s.ended_backwash t _ f b .inService hw off rfl rfl (t.ends_keep f).2.1
    exact ((t.endAborted f).notify_gate _).backwash k

/-- A confirmed move keeps the guarantees: PB goes on with the WASH position, with the plant stop released
(R119, R120). -/
theorem State.moveConfirmed_backwash (s : State) (f : FilterIx) (b : Backwash) (o : MoveObject)
    (v n : Nat) (h : BackwashOk s) (e : s.backwashOf f = some b) (hs : b.step = .move o v n) :
    BackwashOk (s.moveConfirmed f b o v) := by
  have hw := Washing.of h e
  have off : b.stage ≠ .wash → s.pins.pb = false := fun n =>
    Washing.pb_off h e (by simp [washing, n])
  unfold State.moveConfirmed
  extract_lets c
  split
  · rename_i g
    split
    · exact (s.enterStage_backwash f b b _ hw (off (by rw [g]; decide))).1
    · exact s.enterWash_backwash f b b hw (off (by rw [g]; decide))
  · exact s.beginDwell_backwash f b _ h e
  · rename_i g
    have k : Washing ((s.setPb (!s.pins.plantStop)).setPump true) f b := hw.quiet rfl rfl rfl
    refine (State.beginMove_backwash _ f b b .pump 1 k fun p => ?_).1
    refine ⟨rfl, by simpa [State.setPb, State.setPump] using p, fun n => ?_⟩
    simp [washing, g]
  · rename_i g
    split
    · exact s.beginDwell_backwash f b _ h e
    · refine (s.enterStage_backwash f b b _ hw (Washing.pb_off h e ?_)).1
      simp [washing, hs]; intro _; assumption
  · exact s.beginDwell_backwash f b _ h e
  · exact s.beginDwell_backwash f b _ h e
  · exact s.endBackwash_backwash f b h e (by assumption)
  all_goals exact h

/-! ## Faults -/

theorem State.noReturnFault_backwash (s : State) (f : FilterIx) (b : Backwash) (h : BackwashOk s)
    (e : s.backwashOf f = some b) (g : b.stage = .return) : BackwashOk (s.noReturnFault f) := by
  have hw := Washing.of h e
  have off := Washing.pb_off h e (by simp [washing, g])
  unfold State.noReturnFault State.filterFaultNotice
  have k := s.ended_backwash _ _ f b (.faulted .noReturn) hw off rfl rfl (State.ends_keep _ f).2.2
  exact (State.notify_gate _ _).backwash k

theorem State.lostFault_backwash (s : State) (f : FilterIx) (b : Backwash) (h : BackwashOk s)
    (e : s.backwashOf f = some b) : BackwashOk (s.lostFault f b) := by
  have hw := Washing.of h e
  unfold State.lostFault
  extract_lets t u v w
  have hu : GateFrame t u := by
    unfold u; split
    · exact .refl t
    · exact t.originate_gate _ _
  have hu' : Washing u f b := (hw.quiet (t := t) rfl rfl rfl).gate hu
  have hv : Washing v f b ∧ v.pins.pb = false := ⟨hu'.quiet rfl rfl rfl, hu.pb⟩
  have hx : Washing w f b ∧ w.pins.pb = false := by
    unfold w; split
    · unfold State.unrinsedNotice
      exact ⟨(hv.1.updFilter _).gate (State.notify_gate _ _), by simpa using hv.2⟩
    · exact hv
  unfold State.filterFaultNotice
  have k := w.ended_backwash _ _ f b (.faulted .lost) hx.1 hx.2 rfl rfl (State.ends_keep _ f).2.2
  exact (State.notify_gate _ _).backwash k

/-- A filter that is not in BACKWASH takes a state other than BACKWASH and an attempt that fits it. -/
theorem State.updFilter_backwash (s : State) (f : FilterIx) (k : SeqFilter → SeqFilter)
    (h : BackwashOk s) (n : s.backwashOf f = none)
    (k1 : (k (s.seq.filters.get f)).state.backwash? = none)
    (k2 : (k (s.seq.filters.get f)).attempt.isSome = true →
      (k (s.seq.filters.get f)).state ≠ .inService)
    (k3 : (s.tables.filters.get f).assigned = false →
      (k (s.seq.filters.get f)).state = .unused ∧ (k (s.seq.filters.get f)).attempt = none) :
    BackwashOk (s.updFilter f k) := by
  have e : ∀ g, (s.updFilter f k).seq.filters.get g =
      if g = f then k (s.seq.filters.get g) else s.seq.filters.get g := by
    intro g; simp only [State.updFilter_fields, Table.get_upd]
  have hb : ∀ g, (s.updFilter f k).backwashOf g = s.backwashOf g := fun g => by
    by_cases c : g = f
    · subst c; rw [n]; simpa only [State.backwashOf, e, if_true] using k1
    · simp only [State.backwashOf, e, c, if_false]
  obtain ⟨h1, h2, h3⟩ := h
  refine ⟨fun g => ?_, fun g => ?_, fun p => ?_⟩
  · rw [hb]; exact h1 g
  · rw [hb, e]
    by_cases c : g = f
    · subst c; rw [n]; simp only [if_true]
      exact ⟨fun x => ⟨rfl, k2 x⟩, k3⟩
    · simp only [c, if_false]; exact h2 g
  · simp only [hb]; exact h3 p

theorem State.attemptExpired_backwash (s : State) (f : FilterIx) (h : BackwashOk s)
    (a : (s.seq.filters.get f).attempt.isSome = true) : BackwashOk (s.attemptExpired f) := by
  have n := Option.isNone_iff_eq_none.1 ((h.2.1 f).1 a).1
  unfold State.attemptExpired State.filterFaultNotice
  refine (State.notify_gate _ _).backwash
    (s.updFilter_backwash f _ h n rfl (fun x => by cases x) fun x => ?_)
  rw [((h.2.1 f).2 x).2] at a; cases a

/-! ## Grant and reports -/

/-- The winner of a selection is eligible (R107). -/
theorem State.highest_eligible (s : State) (p : FilterIx → Bool) (f : FilterIx)
    (h : s.highest p = some f) : s.eligible f = true ∧ p f = true := by
  unfold State.highest at h
  have key : ∀ (l : List FilterIx) (a : Option FilterIx),
      (∀ g, a = some g → s.eligible g = true ∧ p g = true) →
      ∀ g, l.foldl (fun best f =>
        if s.eligible f && p f then
          match best with
          | none => some f
          | some g =>
            if (s.arbiter.filters.get g).rank < (s.arbiter.filters.get f).rank then some f
            else some g
        else best) a = some g → s.eligible g = true ∧ p g = true := by
    intro l
    induction l with
    | nil => exact fun a ha g hg => ha g hg
    | cons x l ih =>
      intro a ha
      refine ih _ fun g hg => ?_
      dsimp only at hg
      split at hg
      · rename_i hx
        simp only [Bool.and_eq_true] at hx
        split at hg
        · rw [← Option.some.inj hg]; exact hx
        · split at hg
          · rw [← Option.some.inj hg]; exact hx
          · exact ha g (by rw [← hg])
      · exact ha g hg
  exact key _ none (by simp) f h

theorem State.winner_inService (s : State) (f : FilterIx) (h : s.winner = some f) :
    (s.seq.filters.get f).state = .inService := by
  have key : s.eligible f = true := by
    unfold State.winner at h
    split at h
    · rename_i g hg
      rw [← Option.some.inj h]; exact (s.highest_eligible _ g hg).1
    · exact (s.highest_eligible _ f h).1
  simp only [State.eligible, State.conditions, List.all_cons, Bool.and_eq_true, id,
    decide_eq_true_eq] at key
  exact key.1

/-- A backwash begins: the filter that the grant names leaves IN_SERVICE (R116). -/
theorem State.begin_backwash (s : State) (f : FilterIx) (b : Backwash) (o : MoveObject) (v : Nat)
    (hb : s.arbiter.busy = some f) (hn : ∀ g, s.backwashOf g = none) (ha : AttemptsOk s)
    (hf : (s.seq.filters.get f).state = .inService) (off : s.pins.pb = false) :
    BackwashOk (s.beginMove f b o v) := by
  have hq := s.beginMove_pump f b o v
  have hw := s.beginMove_wash f b o v
  have hbusy : (s.beginMove f b o v).arbiter.busy = some f := by
    unfold State.beginMove
    rw [(State.gateBackwash_gate _ _).arbiter, (State.originate_gate _ _ _).arbiter]
    simpa using hb
  have hs : ∀ g, (s.beginMove f b o v).seq.filters.get g = if g = f then
      { s.seq.filters.get g with state := .backwash { b with
        step := .move o v (s.tables.filters.get f).travelLimit } } else s.seq.filters.get g := by
    intro g
    unfold State.beginMove
    rw [(State.gateBackwash_gate _ _).seq, (State.originate_gate _ _ _).seq]
    simp only [State.updFilter_fields, Table.get_upd]
  refine ⟨fun g => ?_, fun g => ?_, fun p => ?_⟩
  · unfold State.backwashOf
    rw [hs, hbusy]
    by_cases c : g = f
    · subst c; simp [FilterState.backwash?]
    · have e := hn g
      unfold State.backwashOf at e
      simp [c, e, Ne.symm c]
  · have e := ha g
    unfold State.backwashOf
    rw [hs, hw.tables]
    by_cases c : g = f
    · subst c
      refine ⟨fun x => ?_, fun x => ?_⟩
      · simp only [if_true] at x
        exact absurd hf (e.1 x).2
      · have := (e.2 x).1
        rw [hf] at this; cases this
    · simp only [c, if_false]; exact e
  · rw [hq.pb, off] at p
    cases p

theorem State.grant_backwash (s : State) (f : FilterIx) (h : BackwashOk s)
    (hb : s.arbiter.busy = none) (hf : (s.seq.filters.get f).state = .inService) :
    BackwashOk (s.grant f) := by
  have none' : ∀ g, s.backwashOf g = none := fun g => by
    by_contra c
    have := (h.1 g).1 (Option.isSome_iff_ne_none.2 c)
    rw [hb] at this; cases this
  have off : s.pins.pb = false := by
    by_contra c
    obtain ⟨-, -, g, hg⟩ := h.2.2 (by simpa using c)
    rw [none' g] at hg; cases hg
  have key : ∀ (u : State) (b : Backwash), u.seq = s.seq → u.tables = s.tables → u.pins = s.pins →
      u.arbiter.busy = some f → BackwashOk (u.beginMove f b .valves Stage.isolate.position) := by
    intro u b h1 h2 h3 h4
    refine u.begin_backwash f b .valves _ h4 (fun g => ?_) (fun g => ?_) (by rw [h1]; exact hf)
      (by rw [h3]; exact off)
    · have := none' g
      unfold State.backwashOf at this ⊢; rw [h1]; exact this
    · have := h.2.1 g
      unfold State.backwashOf at this ⊢; rw [h1, h2]; exact this
  unfold State.grant
  have c := State.cancelCheck_fields { s with arbiter := { s.arbiter with busy := some f } } f
  exact GateFrame.backwash (State.notify_gate _ _) (key _ _ c.1 c.2.1 c.2.2.1 c.2.2.2)

theorem State.arbitrate_backwash (s : State) (h : BackwashOk s) : BackwashOk s.arbitrate := by
  rcases s.arbitrate_cases with c | ⟨c1, f, c2, c3⟩
  · rw [c]; exact h
  · rw [c3]; exact s.grant_backwash f h c1 (s.winner_inService f c2)

theorem backwash_foldl {α : Type} {f : State → α → State}
    (h : ∀ s a, BackwashOk s → BackwashOk (f s a)) (l : List α) (s : State) (d : BackwashOk s) :
    BackwashOk (l.foldl f s) := by
  induction l generalizing s with
  | nil => exact d
  | cons a l ih => exact ih _ (h s a d)

/-- The Arbiter's fields of a filter do not matter to the guarantees. -/
theorem State.updArb_backwash (s : State) (f : FilterIx) (k : ArbFilter → ArbFilter)
    (h : BackwashOk s) : BackwashOk (s.updArb f k) :=
  backwash_of rfl rfl rfl (fun p => ⟨p, rfl, rfl⟩) h

theorem State.seqFlow_backwash (s : State) (c : CircuitIx) (h : BackwashOk s) :
    BackwashOk (s.seqFlow c) := by
  unfold State.seqFlow State.forFilters
  split
  · refine backwash_foldl (fun s f d => ?_) _ s h
    split
    · exact s.abort_backwash _ _ d
    · exact d
  · exact h

theorem State.seqCutOff_backwash (s : State) (g : SegIx) (h : BackwashOk s) :
    BackwashOk (s.seqCutOff g) := by
  unfold State.seqCutOff State.forFilters
  refine backwash_foldl (fun s f d => ?_) _ s h
  split
  · exact d
  · rename_i b e
    split
    · exact s.lostFault_backwash f b d e
    · split
      · exact s.abort_backwash _ _ d
      · exact d

theorem State.reportSlot_backwash (s : State) (k : SlotIx) (v : Option Nat) (h : BackwashOk s) :
    BackwashOk (s.reportSlot k v) := by
  unfold State.reportSlot State.forFilters
  split
  · exact h
  split
  · exact (s.gateReading_gate k).backwash h
  split
  · exact State.arbitrate_backwash _ (State.updArb_backwash _ _ _ h)
  · exact State.arbitrate_backwash _ (backwash_foldl State.judgeTanks_backwash _ s h)

theorem State.reportClass_backwash (s : State) (c : CircuitIx) (h : BackwashOk s) :
    BackwashOk (s.reportClass c) := by
  have k := (s.gateFlow_gate c).backwash h
  unfold State.reportClass
  exact State.seqFlow_backwash _ c k

theorem State.reportSegment_backwash (s : State) (g : SegIx) (h : BackwashOk s) :
    BackwashOk (s.reportSegment g) := by
  have h1 := (s.gateSegment_gate g).backwash h
  unfold State.reportSegment
  generalize s.gateSegment g = t at h1
  refine State.arbitrate_backwash _ ?_
  split
  · exact State.seqCutOff_backwash _ _ h1
  · exact h1

theorem State.endSubstitute_backwash (s : State) (k : SlotIx) (c : Cause) (h : BackwashOk s) :
    BackwashOk (s.endSubstitute k c) := by
  unfold State.endSubstitute
  extract_lets x
  split
  · exact h
  extract_lets t u
  have h0 : BackwashOk (s.putSlot k { x with sub := none }) :=
    backwash_of rfl rfl rfl (fun p => ⟨p, rfl, rfl⟩) h
  have ht : BackwashOk t := (State.notify_gate _ _).backwash h0
  have hu : BackwashOk u := by
    unfold u; split
    · exact (t.notify_gate _).backwash ht
    · exact (t.notify_gate _).backwash ht
    all_goals exact ht
  exact State.reportSlot_backwash _ _ _ hu

/-- An evaluation of the flags keeps the guarantees (R159, R160). -/
theorem State.evaluate_backwash (s : State) (h : BackwashOk s) : BackwashOk s.evaluate := by
  unfold State.evaluate
  extract_lets t u
  have ht : BackwashOk t := backwash_of rfl rfl rfl (fun p => ⟨p, rfl, rfl⟩) h
  have hu : BackwashOk u := by
    unfold u; split
    · refine backwash_foldl (fun x c d => ?_) _ t ht
      split
      · exact d
      · exact (x.switchProgrammes_gate c).backwash d
    · exact ht
  split
  · exact hu
  · exact u.arbitrate_backwash hu

theorem State.gateMode_backwash (s : State) (old : Mode) (h : BackwashOk s) :
    BackwashOk (s.gateMode old) := by
  unfold State.gateMode State.forLines
  refine backwash_foldl (fun s i d => ?_) _ s h
  extract_lets t
  have ht : BackwashOk t := (s.applyCauses_gate i _).backwash d
  split
  · split
    · exact (t.zeroRequest_gate i).backwash ht
    · exact ht
  split
  · exact (t.putLine_gate i _).backwash ht
  · exact ht

theorem State.runnerMode_backwash (s : State) (h : BackwashOk s) : BackwashOk s.runnerMode := by
  unfold State.runnerMode State.forLines
  extract_lets _ t
  have ht : BackwashOk t := backwash_of (s := s) rfl rfl rfl (fun p => ⟨p, rfl, rfl⟩) h
  split
  · refine backwash_foldl (fun s i d => ?_) _ t ht
    split
    · exact (s.startStep_gate i _ _).backwash d
    · exact d
  · exact ht

theorem State.readingMode_backwash (s : State) (h : BackwashOk s) : BackwashOk s.readingMode := by
  have k : ∀ l : List SlotIx, BackwashOk (l.foldl (fun t k => t.endSubstitute k .mode) s) := fun l =>
    backwash_foldl (fun s k d => s.endSubstitute_backwash k .mode d) l s h
  unfold State.readingMode
  split
  · exact k _
  · exact k _
  · exact k _
  all_goals exact h

theorem State.seqMode_backwash (s : State) (h : BackwashOk s) : BackwashOk s.seqMode := by
  unfold State.seqMode State.forFilters
  split
  · exact backwash_foldl (fun s f d => s.abort_backwash f .lockout d) _ s h
  · exact h

theorem State.arbMode_backwash (s : State) (old : Mode) (h : BackwashOk s) :
    BackwashOk (s.arbMode old) := by
  unfold State.arbMode State.forFilters
  refine State.arbitrate_backwash _ ?_
  split
  · exact backwash_foldl (fun s f d => s.updArb_backwash f _ d) _ s h
  · exact h

/-- A change of mode keeps the guarantees (R124, R135, R149). -/
theorem State.changeMode_backwash (s : State) (new : ModeState) (c : Cause) (h : BackwashOk s) :
    BackwashOk (s.changeMode new c) := by
  unfold State.changeMode
  extract_lets old _ t u v w
  have hu : BackwashOk u := backwash_of rfl rfl rfl (fun p => ⟨p, rfl, rfl⟩) h
  have hv : BackwashOk v := by
    unfold v; split
    · exact backwash_of (s := u) rfl rfl rfl (fun p => by cases p) hu
    · exact hu
  have hw : BackwashOk w := (v.notify_gate _).backwash hv
  exact State.arbMode_backwash _ _ (State.seqMode_backwash _ (State.readingMode_backwash _
    (State.runnerMode_backwash _ (State.gateMode_backwash _ _ hw))))

end Sys2Proof.Machine
end

