-- ==== Sys2Proof/Laws/Manage.lean ====
section
/-!
SUPPORT. What taking a management request can do (R17, R143, R153, R161): one lemma for each check that fails,
one for the request that is executed, and one that carries a property of the state through all of them.
-/

namespace Sys2Proof.Machine

variable {α : Type} {s : State} {r : Request} {tag : Byte} {modeOk : Bool} {args : Option α}
  {body : α → Reply}

/-- No free response place (R17). -/
theorem State.manage_full (h : 8 ≤ s.placesTaken) : s.manage r tag modeOk args body = s.dropRequest := by
  simp [State.manage, Config.responsePlaces, h]

/-- The mode does not accept the request (R153). -/
theorem State.manage_badMode (h : s.placesTaken < 8) (hm : modeOk = false) :
    s.manage r tag modeOk args body = s.respond ⟨r.byte, tag, .badMode, []⟩ := by
  simp [State.manage, Config.responsePlaces, Nat.not_le.mpr h, hm, State.answer]

/-- A restart is pending (R143). -/
theorem State.manage_busy (h : s.placesTaken < 8) (hm : modeOk = true) (hr : s.mode.restart ≠ none) :
    s.manage r tag modeOk args body = s.respond ⟨r.byte, tag, .busy, []⟩ := by
  simp [State.manage, Config.responsePlaces, Nat.not_le.mpr h, hm, State.answer,
    Option.isSome_iff_ne_none.mpr hr]

/-- The arguments are wrong (R161). -/
theorem State.manage_badArg (h : s.placesTaken < 8) (hm : modeOk = true) (hr : s.mode.restart = none)
    (ha : args = none) : s.manage r tag modeOk args body = s.respond ⟨r.byte, tag, .badArg, []⟩ := by
  simp [State.manage, Config.responsePlaces, Nat.not_le.mpr h, hm, State.answer, hr, ha]

/-- The request is executed (R161). -/
theorem State.manage_runs (h : s.placesTaken < 8) (hm : modeOk = true) (hr : s.mode.restart = none)
    {a : α} (ha : args = some a) : s.manage r tag modeOk args body = (body a).finish r tag := by
  simp [State.manage, Config.responsePlaces, Nat.not_le.mpr h, hm, hr, ha]

/-- A property that a dropped request, an answer and the executed body keep is kept. -/
theorem State.manage_keeps {P : State → Prop} (hdrop : P s.dropRequest)
    (hanswer : ∀ result, s.placesTaken < 8 → P (s.respond ⟨r.byte, tag, result, []⟩))
    (hbody : ∀ a, args = some a → s.placesTaken < 8 → modeOk = true → s.mode.restart = none →
      P ((body a).finish r tag)) : P (s.manage r tag modeOk args body) := by
  by_cases hfull : 8 ≤ s.placesTaken
  · rw [State.manage_full hfull]; exact hdrop
  have hfree : s.placesTaken < 8 := by omega
  cases hm : modeOk
  · rw [State.manage_badMode hfree rfl]; exact hanswer _ hfree
  by_cases hr : s.mode.restart = none
  · cases ha : args with
    | none => rw [State.manage_badArg hfree rfl hr rfl]; exact hanswer _ hfree
    | some a => rw [State.manage_runs hfree rfl hr rfl]; exact hbody a ha hfree hm hr
  · rw [State.manage_busy hfree rfl hr]; exact hanswer _ hfree

/-- An answered body. -/
@[simp] theorem Reply.finish_reply (t : State) (result : Result) :
    (t.reply result).finish r tag = t.respond ⟨r.byte, tag, result, []⟩ := rfl

/-- A body answered DONE with data. -/
@[simp] theorem Reply.finish_replyData (t : State) (data : List Byte) :
    (t.replyData data).finish r tag = t.respond ⟨r.byte, tag, .done, data⟩ := rfl

/-- An object number as one argument byte. -/
theorem ixFrom_val {lo n k : Nat} (i : Fin n) (h : k = i.val + lo) : ixFrom lo n k = some i := by
  have hi := i.isLt
  unfold ixFrom
  rw [dif_pos (by omega)]
  congr 1
  exact Fin.ext (by simp only; omega)

/-- A number past the table names no object. -/
theorem ixFrom_none {lo n k : Nat} (h : k < lo ∨ lo + n ≤ k) : ixFrom lo n k = none := by
  unfold ixFrom
  exact dif_neg (by omega)

end Sys2Proof.Machine
end

