-- ==== Sys2Proof/Laws/Own.lean ====
section
/-!
SUPPORT. What happens to the own queues, said once: what offering and originating one COMMAND do, and that the
shared operations of the Dose Gate keep every frame at its place, change the value only of frames for keys
they originate to, and add at most one frame for each.
-/

namespace Sys2Proof.Machine

open Sys2Proof.Safety Sys2Proof.Claims

/-- A segment is cut off unless it is UP or LOST (R7). -/
theorem SegState.cutOff_iff (x : SegState) : x.cutOff = true ↔ x ≠ .up ∧ x ≠ .lost := by
  cases x <;> simp [SegState.cutOff]

theorem Cmd.sameKey_iff (a b : Cmd) : a.sameKey b = true ↔ OneKey b a := by
  simp only [Cmd.sameKey, OneKey, Bool.and_eq_true, beq_iff_eq]
  exact ⟨fun h => ⟨h.1.symm, h.2.symm⟩, fun h => ⟨h.1.symm, h.2.symm⟩⟩

/-- The table of R15. -/
theorem Segment.offer_own (x : Segment) (c : Cmd) : (x.offer c).own = ownAfter x c := by
  have hmap : (fun d : Cmd => if c.sameKey d then { d with value := c.value } else d)
      = fun d => if OneKey d c then c else d := by
    funext d
    by_cases h : OneKey d c
    · rw [if_pos ((Cmd.sameKey_iff c d).2 h), if_pos h]
      obtain ⟨h1, h2⟩ := h
      cases c; cases d; simp_all
    · rw [if_neg (mt (Cmd.sameKey_iff c d).1 h), if_neg h]
  have hany : x.own.any c.sameKey = true ↔ ∃ d ∈ x.own, OneKey d c := by
    simp only [List.any_eq_true, Cmd.sameKey_iff]
  unfold Segment.offer ownAfter
  simp only [SegState.cutOff_iff, hany, hmap]
  by_cases h1 : x.state ≠ .up ∧ x.state ≠ .lost
  · rw [if_pos h1, if_pos h1]
  by_cases h2 : ∃ d ∈ x.own, OneKey d c
  · rw [if_neg h1, if_neg h1, if_pos h2, if_pos h2]
  by_cases h3 : x.own.length < Config.ownPlaces
  · rw [if_neg h1, if_neg h1, if_neg h2, if_neg h2, if_pos h3, if_pos (show x.own.length < 24 from h3)]
  · rw [if_neg h1, if_neg h1, if_neg h2, if_neg h2, if_neg h3, if_neg (show ¬ x.own.length < 24 from h3)]

/-- Originating is the one offer of R15, on the segment of the entry's station. -/
theorem State.originate_own (s : State) (k : Option (Fin 48)) (v : Nat) :
    OffersOnly s (s.originate k v) k v := by
  intro g
  unfold State.originate
  cases k with
  | none => rfl
  | some e =>
    dsimp only
    split
    · rename_i h
      have h' : s.segOfEntry (some e) = none := h
      rw [if_neg (by rw [h']; exact nofun)]
    · rename_i g' h
      have h' : s.segOfEntry (some e) = some g' := h
      dsimp only [State.updSegment]
      rw [Table.get_upd]
      by_cases hg : g = g'
      · rw [if_pos hg, if_pos (hg ▸ h'), Segment.offer_own]
        rfl
      · rw [if_neg hg, if_neg fun e => hg (Option.some.inj (e.symm.trans h'))]

/-- From `s` to `t` each own queue keeps every frame at its place, its value changed only by a COMMAND to one of
the entries `K`, and takes at most one frame more for each of them. -/
structure OwnGrows (K : List (Option (Fin 48))) (s t : State) : Prop where
  tables : t.tables = s.tables
  kept : ∀ (g : SegIx) (n : Nat) (d : Cmd), (s.ports.segments.get g).own[n]? = some d →
    ∃ v, (t.ports.segments.get g).own[n]? = some { d with value := v } ∧
      (v = d.value ∨ ∃ e, some e ∈ K ∧ OneKey d (commandTo s e v))
  length : ∀ g : SegIx,
    (t.ports.segments.get g).own.length ≤ (s.ports.segments.get g).own.length + K.length

namespace OwnGrows

/-- A change that leaves the segments and the tables alone. -/
theorem of_same {K : List (Option (Fin 48))} {s t : State} (ht : t.tables = s.tables)
    (hs : t.ports.segments = s.ports.segments) : OwnGrows K s t :=
  ⟨ht, fun g n d h => ⟨d.value, by rw [hs]; exact h, .inl rfl⟩, fun g => by rw [hs]; omega⟩

theorem refl (K : List (Option (Fin 48))) (s : State) : OwnGrows K s s := of_same rfl rfl

theorem mono {K L : List (Option (Fin 48))} {s t : State} (h : OwnGrows K s t) (hk : K ⊆ L)
    (hl : K.length ≤ L.length) : OwnGrows L s t :=
  ⟨h.tables, fun g n d hd => by
    obtain ⟨v, h1, h2⟩ := h.kept g n d hd
    exact ⟨v, h1, h2.imp id fun ⟨e, he, hk'⟩ => ⟨e, hk he, hk'⟩⟩,
    fun g => (h.length g).trans (by omega)⟩

theorem trans {K L : List (Option (Fin 48))} {s t u : State} (h : OwnGrows K s t)
    (k : OwnGrows L t u) : OwnGrows (K ++ L) s u := by
  refine ⟨k.tables.trans h.tables, fun g n d hd => ?_, fun g => ?_⟩
  · obtain ⟨v, h1, h2⟩ := h.kept g n d hd
    obtain ⟨w, k1, k2⟩ := k.kept g n _ h1
    refine ⟨w, k1, ?_⟩
    rcases k2 with rfl | ⟨e, he, hk⟩
    · exact h2.imp id fun ⟨e, he, hk⟩ => ⟨e, List.mem_append_left _ he, hk⟩
    · refine .inr ⟨e, List.mem_append_right _ he, ?_⟩
      simpa only [OneKey, commandTo, h.tables] using hk
  · have := h.length g
    have := k.length g
    rw [List.length_append]
    omega

/-- Where one of the steps offers nothing the list stays. -/
theorem trans_quiet {K : List (Option (Fin 48))} {s t u : State} (h : OwnGrows K s t)
    (k : OwnGrows [] t u) : OwnGrows K s u := List.append_nil K ▸ h.trans k

theorem quiet_trans {K : List (Option (Fin 48))} {s t u : State} (h : OwnGrows [] s t)
    (k : OwnGrows K t u) : OwnGrows K s u := h.trans k

end OwnGrows

theorem State.originate_grows (s : State) (k : Option (Fin 48)) (v : Nat) :
    OwnGrows [k] s (s.originate k v) := by
  have ho := s.originate_own k v
  refine ⟨(s.originate_gate k v).tables, fun g n d hd => ?_, fun g => ?_⟩
  · rw [ho g]
    cases k with
    | none => exact ⟨d.value, hd, .inl rfl⟩
    | some e =>
      dsimp only
      split
      · unfold ownAfter
        split
        · exact ⟨d.value, hd, .inl rfl⟩
        split
        · rw [List.getElem?_map, hd, Option.map_some]
          by_cases hk : OneKey d (commandTo s e v)
          · refine ⟨v, ?_, .inr ⟨e, List.mem_singleton.2 rfl, hk⟩⟩
            rw [if_pos hk]
            obtain ⟨h1, h2⟩ := hk
            cases d; simp_all [commandTo]
          · exact ⟨d.value, by rw [if_neg hk], .inl rfl⟩
        split
        · refine ⟨d.value, ?_, .inl rfl⟩
          obtain ⟨hn, -⟩ := List.getElem?_eq_some_iff.1 hd
          rw [List.getElem?_append_left hn]
          exact hd
        · exact ⟨d.value, hd, .inl rfl⟩
      · exact ⟨d.value, hd, .inl rfl⟩
  · rw [ho g]
    cases k with
    | none => simp
    | some e =>
      dsimp only
      unfold ownAfter
      split <;> (try split) <;> (try split) <;> (try split) <;> simp

/-! ## The Dose Gate -/

theorem State.notify_grows (s : State) (n : Notice) : OwnGrows [] s (s.notify n) := by
  unfold State.notify
  split <;> exact .of_same rfl rfl

theorem State.putLine_grows (s : State) (i : LineIx) (l : Line) : OwnGrows [] s (s.putLine i l) :=
  .of_same rfl rfl

theorem State.endProgramme_grows (s : State) (i : LineIx) (c : Cause) :
    OwnGrows [] s (s.endProgramme i c) := by
  unfold State.endProgramme
  split
  · exact .refl _ s
  · exact .quiet_trans (t := s.putProg i none) (.of_same rfl rfl) (State.notify_grows _ _)

theorem State.excludeDrop_grows (s : State) (i : LineIx) : OwnGrows [] s (s.excludeDrop i) :=
  ((s.putLine_grows _ _).trans_quiet (State.notify_grows _ _)).trans_quiet
    (State.endProgramme_grows _ _ _)

/-- A recompute originates to the line's own pump and to no other key (R54). -/
theorem State.recompute_grows (s : State) (w : For) (i : LineIx) :
    OwnGrows [s.lineEntry i] s (s.recompute w i) := by
  unfold State.recompute
  extract_lets l r t u
  split
  · exact (s.excludeDrop_grows i).mono (List.nil_subset _) (Nat.zero_le _)
  split
  · exact .of_same rfl rfl
  have ht : OwnGrows [] s t := .of_same rfl rfl
  have hu : OwnGrows [s.lineEntry i] s u := by
    unfold u
    split
    · exact ht.mono (List.nil_subset _) (Nat.zero_le _)
    · exact ht.quiet_trans (t.originate_grows _ _)
  split
  · exact hu.trans_quiet (u.notify_grows _)
  · exact hu

theorem State.resumeExpired_grows (s : State) (i : LineIx) :
    OwnGrows [s.lineEntry i] s (s.resumeExpired i) := by
  unfold State.resumeExpired
  extract_lets l
  split
  · exact (s.excludeDrop_grows i).mono (List.nil_subset _) (Nat.zero_le _)
  split
  · exact .of_same rfl rfl
  · exact .quiet_trans (s.putLine_grows i { l with state := .dosing, resume := 0 })
      (State.recompute_grows (s.putLine i { l with state := .dosing, resume := 0 }) .event i)

/-- A change of a line's causes originates to its own pump and to no other key (R61, R62). -/
theorem State.applyCauses_grows (s : State) (i : LineIx) (new : Causes) :
    OwnGrows [s.lineEntry i] s (s.applyCauses i new) := by
  unfold State.applyCauses
  extract_lets l cleared requested next resumes delay t
  split
  · exact .refl _ s
  have ht : OwnGrows [] s t := s.putLine_grows _ _
  have hu : OwnGrows [] s (match l.causes.clearedBy new with
      | some c => t.endProgramme i c
      | none => t) := by
    split
    · exact ht.trans_quiet (t.endProgramme_grows _ _)
    · exact ht
  have he : ∀ u : State, OwnGrows [] s u → u.lineEntry i = s.lineEntry i := fun u h => by
    simp only [State.lineEntry, State.findObject, h.tables]
  split
  · rw [← he _ hu]; exact hu.quiet_trans (State.resumeExpired_grows _ _)
  · rw [← he _ hu]; exact hu.quiet_trans (State.recompute_grows _ _ _)

/-- Changing the causes of the lines that `p` holds of originates to the pumps of the twelve lines only. -/
theorem State.linesWhere_grows (p : State → LineIx → Prop) [∀ s i, Decidable (p s i)]
    (c : State → LineIx → Causes) (s : State) :
    OwnGrows ((List.finRange 12).map s.lineEntry) s
      (s.forLines fun s i => if p s i then s.applyCauses i (c s i) else s) := by
  unfold State.forLines
  generalize List.finRange 12 = ls
  induction ls generalizing s with
  | nil => exact .refl _ s
  | cons i ls ih =>
    rw [List.foldl_cons, List.map_cons]
    have h : OwnGrows [s.lineEntry i] s (if p s i then s.applyCauses i (c s i) else s) := by
      split
      · exact s.applyCauses_grows _ _
      · exact .refl _ s
    have he : (if p s i then s.applyCauses i (c s i) else s).lineEntry = s.lineEntry := by
      funext j
      simp only [State.lineEntry, State.findObject, h.tables]
    have := h.trans (ih _)
    rwa [he] at this

end Sys2Proof.Machine
end

