-- ==== Sys2Proof/Tests/Slice0.lean ====
section
/-!
SUPPORT. Small tests: an ill-formed term for each check of `wellFormed`, the reset state, one step of some
commands, and for every obligation with hypotheses a state and operands that meet all of them together.
-/

namespace Sys2Proof.Tests

open Sys2Proof.Machine Sys2Proof.Safety Sys2Proof.Claims

set_option Elab.async false

/-! ## Well-formedness: what the check refuses -/

theorem test_wellFormed_frameDiscarded :
    (Instr.frameDiscarded .supervisor (List.replicate 262 0)).wellFormed = false := by decide +kernel

theorem test_wellFormed_foreignFrame :
    (Instr.foreignFrame .supervisor .sample 122 0).wellFormed = false ∧
      (Instr.foreignFrame .supervisor .sample 0 122).wellFormed = false ∧
      (Instr.foreignFrame .supervisor .command 0 1).wellFormed = false ∧
      (Instr.foreignFrame (.segment 0) .notice 1 0).wellFormed = false := by decide

theorem test_wellFormed_misplacedStation :
    (Instr.misplacedStation 0 .sample 122 0).wellFormed = false ∧
      (Instr.misplacedStation 0 .sample 1 255).wellFormed = false := by decide

theorem test_wellFormed_stations :
    (Instr.stationCommand 0 0 0).wellFormed = false ∧
      (Instr.stationCommand 121 0 0).wellFormed = false ∧
      (Instr.sample 0 0 0 0 0).wellFormed = false ∧ (Instr.echo 0 121 0 0).wellFormed = false ∧
      (Instr.sample 0 120 0 0 0).wellFormed = true := by decide

theorem test_wellFormed_unknownRequestCode :
    (Instr.unknownRequestCode 1 0).wellFormed = false ∧
      (Instr.unknownRequestCode 29 0).wellFormed = false ∧
      (Instr.unknownRequestCode 30 0).wellFormed = true := by decide

/-- Eleven argument bytes fit no request. -/
def eleven : List Byte := List.replicate 11 0

/-- Every request with eleven argument bytes. -/
def longRequests : List Instr :=
  ([.refresh, .enterSupervised, .enterHold, .lock, .release, .commitCommissioning, .restart,
    .clearRecoveryCount, .setClock, .setField, .getField, .getState, .storeSettings, .setSubstitute,
    .clearSubstitute] ++
  [.startProgramme, .stopProgramme, .backwashNow, .abortBackwash, .maskFilter, .unmaskFilter,
    .setLowest, .clearFaultLine, .clearFaultFilter, .snapshot, .readSnapshot, .isolateSegment,
    .restoreSegment, .readConditions, .clearConditions] : List (Byte → List Byte → Instr)).map
  fun c => c 0 eleven

theorem test_wellFormed_requests :
    (longRequests.all fun c => !c.wellFormed) = true ∧ (Instr.refresh 0 []).wellFormed = true := by
  decide

/-! ## Reset, the step and the word -/

/-- The state a command answers. -/
def after (c : Instr) (s : State) : State :=
  match exec c s with
  | .next t => t
  | .fault _ | .refused _ => s

theorem test_powerOn_fixes_reset : after .powerOn State.reset = State.reset := by decide +kernel

theorem test_no_word_spells_a_command : decodeTableWord 8 1 = none := rfl

theorem test_withFetchWord_unchanged : State.reset.withFetchWord 8 1 = State.reset := rfl

theorem test_core_step : Sys2Proof.core.step Sys2Proof.core.reset = .next State.reset.tick := rfl

/-! ## A small plant -/

/-- Station 1 on S1 holds D1's pump, F1's valves, the backwash pump, C1's circulation, a PASS and a CLOSED
entry; D1 and D2 share a point on C1; F1 is assigned. -/
def plantTables : Tables :=
  { Tables.defaults with
    directory := Tables.defaults.directory.set 0 (some 0)
    admission := (((((Tables.defaults.admission.set 0 ⟨true, 1, 0, .doseLine, 1⟩).set 1
      ⟨true, 1, 1, .filterValves, 1⟩).set 2 ⟨true, 1, 2, .backwashPump, 0⟩).set 3
      ⟨true, 1, 3, .circPump, 1⟩).set 4 ⟨true, 1, 4, .pass, 0⟩).set 5 ⟨true, 1, 5, .closed, 0⟩
    sampleMap := Tables.defaults.sampleMap.set 0 ⟨true, 1, 0, 0⟩
    flowInputs := Tables.defaults.flowInputs.set 0 (some 0)
    circuits := Tables.defaults.circuits.set 0 ⟨true, 600, 300, 0, 60⟩
    lines := (Tables.defaults.lines.set 0
      ⟨true, .hypo, 0, 1, 1000, 50, 100, 200, 50, 60, 10, ⟨some 0, some 2⟩, ⟨some 2, some 1⟩⟩).set 1
      ⟨true, .hypo, 0, 1, 1000, 50, 100, 200, 50, 60, 10, ⟨none, none⟩, ⟨none, none⟩⟩
    filters := Tables.defaults.filters.set 0 ⟨true, 0, 800, 1200, 50, 1, 120, 300, 60, 120, 60, 300⟩
    steps := Tables.defaults.steps.set 0 ⟨.rate, 500, 5, none, false⟩ }

/-- The plant in a mode, its segments UP, C1 at class FULL. -/
def plant (m : ModeState) : State :=
  { State.reset with
    ports := { State.reset.ports with segments := .fill ⟨.up, none, [], [], none⟩, notices := [] }
    tables := plantTables
    flow := { State.reset.flow with
      circuits := State.reset.flow.circuits.set 0 ⟨640, .full, .full, none, .run, 0, false⟩ }
    gate := (State.reset.gate.set 0 { Line.atReset with state := .stopped }).set 1
      { Line.atReset with state := .stopped }
    seq := { State.reset.seq with
      filters := State.reset.seq.filters.set 0 ⟨.inService, none, false, none⟩ }
    mode := { State.reset.mode with state := m } }

/-- SUPERVISED at `e` seconds of a period of 10 s. -/
def supervised (e : Nat) (late : Bool) : State := plant (.supervised ⟨10, e, late⟩)

/-- D1 with another record. -/
def withLine (s : State) (l : Line) : State := { s with gate := s.gate.set 0 l }

/-- D1 DOSING 500 ml/h with its permit on. -/
def dosing : State :=
  let s := withLine (supervised 5 false)
    ⟨.dosing, .supervisor, 500, 500, 500, .confirmed, some 500, Causes.empty, 0, none, .requested⟩
  { s with pins := { s.pins with permits := s.pins.permits.set 0 true } }

/-- F1 with another record of the Sequencer, and the Arbiter's grant. -/
def withFilter (s : State) (q : SeqFilter) (busy : Option FilterIx) : State :=
  { s with
    seq := { s.seq with filters := s.seq.filters.set 0 q }
    arbiter := { s.arbiter with busy := busy } }

/-- F1 in BACKWASH. -/
def washing (stage : Stage) (step : BwStep) : State :=
  withFilter (supervised 5 false) ⟨.backwash ⟨stage, step, none, true, false, 9⟩, none, false, none⟩
    (some 0)

/-- F1 in the dwell of WASH with the pump running and PB on. -/
def pumping : State :=
  let s := washing .wash (.dwell 7)
  { s with pins := { s.pins with pb := true }, seq := { s.seq with pumpRun := true } }

/-- F1 with another record of the Arbiter. -/
def withArb (s : State) (h : ArbFilter → ArbFilter) : State := s.updArb 0 h

/-- A programme on D1. -/
def withProg (s : State) (p : Prog) : State := s.putProg 0 (some p)

/-- S1 in another state. -/
def withSegment (s : State) (x : SegState) : State := s.updSegment 0 fun g => { g with state := x }

/-- A slot with another record. -/
def withSlot (s : State) (k : SlotIx) (x : Slot) : State := s.putSlot k x

/-- Eight responses wait. -/
def crowded (s : State) : State :=
  { s with ports := { s.ports with responses := List.replicate 8 ⟨1, 0, .done, []⟩ } }

/-- A write of the store is in flight. -/
def writing (s : State) (commit : Bool) : State :=
  { s with mgmt := { s.mgmt with write := some ⟨commit, 3, 2⟩ } }

/-- The tables of the plant are consistent. -/
theorem test_plantTables_keys :
    (∀ j k : Fin 48, (plantTables.admission.get j).enabled = true →
      (plantTables.admission.get k).enabled = true →
      (plantTables.admission.get j).channel = (plantTables.admission.get k).channel → j = k) := by
  decide +kernel

theorem test_plantTables_steps : ∀ k : Fin 256, (plantTables.steps.get k).valid = true := by
  decide +kernel

theorem test_plantTables_ok : TablesOk plantTables := by
  refine ⟨fun j k hj hk _ hc => test_plantTables_keys j k hj hk hc, ?_, ?_, test_plantTables_steps,
    by decide, by decide⟩ <;> decide +kernel

/-! ## Every hypothesis is met: the step, the guarantees, the frames -/

theorem test_hyps_StepRunsTheFrontCommand :
    ({ dosing with pending := [.windowEnd, .minuteChange] } : State).pending
      = .windowEnd :: [.minuteChange] := rfl

theorem test_hyps_EmptyQueuePassesOneSecond :
    dosing.pending = [] ∧ dosing.pins.permits.get 0 = true := by decide +kernel

theorem test_second_queues_due_events_only :
    .totaliserAddition 0 ∈ dosing.tick.pending ∧ (dosing.tick.pending.all isTimedEvent) = true ∧
      dosing.tick.pending.Nodup ∧ isTimedEvent .powerOn = false ∧
      isTimedEvent (.refresh 0 []) = false := by decide +kernel

theorem test_hyps_guarantees :
    (ClockOk dosing ∧ CountsOk dosing ∧ RanksOk dosing ∧ RecoveryOk dosing ∧ RestoreOk dosing) ∧
      step dosing = .next dosing.tick := ⟨by decide +kernel, rfl⟩

theorem test_hyps_queues_dose_backwash :
    QueuesOk dosing ∧ DoseOk dosing ∧ BackwashOk pumping ∧ step pumping = .next pumping.tick :=
  ⟨by decide +kernel, by decide +kernel, by decide +kernel, rfl⟩

/-- Both tanks in their ranges. -/
def tanksOk (s : State) : State :=
  withSlot (withSlot s 20 ⟨⟨.valid, some ⟨600, 0⟩⟩, none⟩) 21 ⟨⟨.valid, some ⟨300, 0⟩⟩, none⟩

/-- F1 holds `r`, the tanks are in their ranges and C1's window is open. -/
def asking (r : RequestSet) : State :=
  (withArb (tanksOk dosing) fun a => { a with requests := r }).updClock fun c =>
    { c with washFlags := .fill true }

theorem test_hyps_grants :
    (asking ⟨false, false, true, false⟩).winner = some 0 ∧
      (asking ⟨false, false, true, false⟩).arbiter.busy = none ∧
      (asking ⟨false, false, false, false⟩).winner = none ∧
      SubstitutesOk (asking ⟨false, false, false, false⟩) ∧
      (asking ⟨false, false, false, false⟩).backwashOf 0 = none ∧
      ((after (.backwashNow 1 [1]) (asking ⟨false, false, false, false⟩)).backwashOf 0).isSome = true ∧
      pumping.arbiter.busy ≠ none := by decide +kernel

/-- The supply start level itself is enough, one below it is not (R104, R105). -/
theorem test_level_boundaries :
    let s := asking ⟨false, true, false, false⟩
    s.eligible 0 = true ∧
      (withSlot s 20 ⟨⟨.valid, some ⟨599, 0⟩⟩, none⟩).firstFailed 0 = some 10 ∧
      (withSlot s 21 ⟨⟨.valid, some ⟨301, 0⟩⟩, none⟩).firstFailed 0 = some 11 := by decide +kernel

/-- The plant in LOCKOUT with its flag set and F1 in RETURN. -/
def locked : State :=
  let s := withFilter (plant .lockout)
    ⟨.backwash ⟨.return, .move .valves 1 4, some (.lockout, .wash), true, false, 9⟩, none, false, none⟩
    (some 0)
  { s with
    pins := { s.pins with lockout := true, keyswitch := true }
    mode := { s.mode with retained := { s.mode.retained with lockoutFlag := true } } }

theorem test_hyps_LockoutFollowsItsFlag :
    LockoutOk locked ∧ PermitsOk locked ∧ locked.mode.retained.lockoutFlag = true ∧
      LockoutOk dosing ∧ dosing.mode.retained.lockoutFlag = false ∧
      (after (.release 1 []) locked).mode.retained.lockoutFlag = false := by decide +kernel

theorem test_lockout_steps :
    step locked = .next locked.tick ∧
      exec (.release 1 []) locked = .next (after (.release 1 []) locked) := ⟨rfl, rfl⟩

theorem test_hyps_substitutes :
    let s := withSlot (supervised 5 false) 11 ⟨⟨.absent, none⟩, some ⟨700, 14400⟩⟩
    RestoreOk s ∧ SubstitutesOk s := by decide +kernel

theorem test_hyps_TablesStayConsistent : StoredOk (supervised 5 false) :=
  ⟨test_plantTables_ok, fun h => absurd h (by decide +kernel)⟩

theorem test_hyps_TotalsChangeOnlyAsStated :
    dosing.pins.permits.get 0 = true ∧ dosing.pins.permits.get 1 = false ∧
      (after (.totaliserAddition 0) dosing).runner.totals ≠ dosing.runner.totals ∧
      ((plant .hold).mode.restart.map (plant .hold).restartHeld = none) ∧
      ({ plant .hold with mode := ⟨.hold, some .commit, State.reset.mode.retained⟩ } : State).restartHeld
        .commit = false := by decide +kernel

/-- The last ml of a totaliser wraps (R91). -/
theorem test_totaliser_wraps :
    let s := { dosing with runner := { dosing.runner with
      totals := dosing.runner.totals.set 0 ⟨0xFFFFFFFF, 3599⟩ } }
    (after (.totaliserAddition 0) s).runner.totals.get 0 = ⟨0, 499⟩ := by decide +kernel

theorem test_hyps_own_commands :
    (after (.setField 1 [9, 0, 4, 0, 0, 0, 0]) (supervised 5 false)).tables.params.unlisted = .pass ∧
      (supervised 5 false).tables.params.unlisted = .refuse ∧
      (after (.flowPulse 0) (supervised 5 false)).flow.inputs ≠ (supervised 5 false).flow.inputs ∧
      ((after (.sample 0 1 0 700 0) (supervised 5 false)).slots.get 0).base = ⟨.valid, some ⟨700, 0⟩⟩ ∧
      (after (.setClock 1 [6, 5, 159, 59]) (supervised 5 false)).clock.minute = 1439 := by
  decide +kernel

theorem test_hyps_BlocksLeaveEachOther :
    isLineCommand (.confirmTimerExpiry 0) = true ∧ isLineCommand (.clearFaultLine 1 [5, 1]) = true ∧
      isWashCommand (.dwellEnd 0) = true ∧ isWashCommand (.clearFaultFilter 1 [9, 1]) = true ∧
      exec (.dwellEnd 0) pumping = .next (after (.dwellEnd 0) pumping) := ⟨rfl, rfl, rfl, rfl, rfl⟩

theorem test_hyps_QuietCommandsLeaveThePlant :
    isQuiet (.flowPulse 0) = true ∧
      exec (.flowPulse 0) dosing = .next (after (.flowPulse 0) dosing) := ⟨rfl, rfl⟩

/-! ## Every hypothesis is met: resets and frames -/

/-- A restart is pending. -/
def restarting (responses : List Response) : State :=
  let s := plant .hold
  { s with
    ports := { s.ports with responses := responses }
    mode := { s.mode with restart := some .commit } }

theorem test_hyps_ResetsKeepTheRetainedRecord :
    dosing.mode.retained.recoveryCount ≤ 5 ∧ dosing.mode.restart = none ∧
      (restarting []).mode.restart = some .commit ∧ (restarting []).restartHeld .commit = false ∧
      (restarting [⟨6, 1, .done, []⟩]).restartHeld .commit = true := by decide +kernel

theorem test_hyps_DiscardedFramesChangeNothing :
    (withSegment (supervised 5 false) .lost).segState 0 ≠ .up := by decide +kernel

theorem test_hyps_ForeignAndMisplacedFramesAreNotified :
    Listed dosing 0 1 ∧ isForeign (.segment 0) .sample 1 5 = true ∧
      isForeign .supervisor .command 0 121 = true ∧ dosing.segOf 2 ≠ some 0 := by decide +kernel

theorem test_hyps_StationCommandChecksInOrder :
    Byte.isStation 1 = true ∧ Byte.isStation 120 = true ∧ dosing.segOf 120 = none ∧
      dosing.segOf 1 = some 0 ∧ (withSegment dosing .forced).segState 0 ≠ .up ∧
      (withSegment dosing .forced).segState 0 ≠ .lost ∧
      (let s := dosing.updSegment 0 fun x => { x with forwarded := List.replicate 16 ⟨1, 0, 0⟩ }
       s.segState 0 = .up ∧ 16 ≤ (s.ports.segments.get 0).forwarded.length) := by decide +kernel

theorem test_hyps_PassedCommandJoinsTheForwardedQueue :
    dosing.segOf 1 = some 0 ∧ dosing.segState 0 = .up ∧
      (dosing.ports.segments.get 0).forwarded.length < 16 ∧ dosing.lookupKey 1 4 = some 4 ∧
      (dosing.tables.admission.get 4).object = .pass ∧ dosing.lookupKey 1 5 = some 5 ∧
      (dosing.tables.admission.get 5).object = .closed ∧ dosing.lookupKey 1 1 = some 1 ∧
      (dosing.tables.admission.get 1).object = .filterValves ∧ dosing.modeNow ≠ .commission ∧
      (plant .commission).modeNow = .commission ∧ (plant .commission).lookupKey 1 1 = some 1 ∧
      dosing.lookupKey 1 7 = none ∧ dosing.tables.params.unlisted = .refuse ∧
      (dosing.updTables fun t => { t with params := { t.params with unlisted := .pass } }).lookupKey
        1 7 = none := by decide +kernel

/-- D1 in a state with causes. -/
def line (x : LineState) (c : Causes) : State :=
  withLine (supervised 5 false) { Line.atReset with state := x, causes := c }

theorem test_hyps_RateCommandIsTakenOrRefused :
    dosing.lookupKey 1 0 = some 0 ∧ (dosing.tables.admission.get 0).object = .doseLine ∧
      (dosing.tables.admission.get 0).objectIndex = 1 ∧ dosing.modeNow = .supervised ∧
      (dosing.gate.get 0).state = .dosing ∧ (dosing.gate.get 0).causes = Causes.empty ∧
      dosing.otherDosing 0 = false ∧
      ((line .inhibited { Causes.empty with flow := true }).gate.get 0).causes.firstLatched = none ∧
      ((line .inhibited { Causes.empty with hold := true }).gate.get 0).causes.firstLatched
        = some .hold ∧
      (plant .hold).modeNow ≠ .supervised ∧ (plant .hold).modeNow ≠ .commission ∧
      ((line .disabled Causes.empty).gate.get 0).state = .disabled ∧
      ((line .faulted Causes.empty).gate.get 0).state = .faulted ∧
      (let s := { dosing with gate := dosing.gate.set 1 (dosing.gate.get 0) }
       s.otherDosing 0 = true) := by decide +kernel

/-- The rate of R53: 60000 is clamped to the maximum rate, and to the blind rate with no reading. -/
theorem test_rate_is_clamped :
    rateFor dosing 0 60000 = 100 ∧
      rateFor (withSlot dosing 0 ⟨⟨.valid, some ⟨700, 0⟩⟩, none⟩) 0 60000 = 1000 ∧
      ((after (.stationCommand 1 0 60000) dosing).gate.get 0).admitted = 100 := by decide +kernel

theorem test_hyps_CirculationCommandStopsAndRuns :
    dosing.lookupKey 1 3 = some 3 ∧ (dosing.tables.admission.get 3).object = .circPump ∧
      (dosing.tables.admission.get 3).objectIndex = 1 ∧ dosing.backwashOn 0 = false ∧
      pumping.lookupKey 1 3 = some 3 ∧ pumping.backwashOn 0 = true ∧
      (dosing.tables.lines.get 0).circuit = 0 ∧ (dosing.gate.get 0).state ≠ .disabled ∧
      (dosing.gate.get 0).causes.circStop = false ∧
      (let s := line .inhibited { Causes.empty with circStop := true }
       (s.gate.get 0).state = .inhibited ∧ (s.gate.get 0).requested = 0 ∧
         s.backwashCause 0 = false ∧ s.lookupKey 1 3 = some 3) ∧
      (let s := dosing.updTables fun t => { t with
         lines := t.lines.upd 5 fun c => { c with circuit := 1 } }
       (s.tables.lines.get 5).circuit ≠ 0 ∧ s.lookupKey 1 3 = some 3) := by decide +kernel

theorem test_hyps_SampleJudgesItsSlot :
    Listed dosing 0 1 ∧ dosing.lookupSlot 1 0 = some 0 ∧ dosing.lookupSlot 1 7 = none ∧
      (dosing.tables.slots.get 0).minimum = 0 ∧ (dosing.tables.slots.get 0).maximum = 2000 := by
  decide +kernel

/-- A sample at its maximum is VALID, one above it FAULTY. -/
theorem test_sample_bounds :
    ((after (.sample 0 1 0 2000 0) dosing).slots.get 0).base = ⟨.valid, some ⟨2000, 0⟩⟩ ∧
      ((after (.sample 0 1 0 2001 0) dosing).slots.get 0).base = ⟨.faulty .range, none⟩ ∧
      ((after (.sample 0 1 0 5 1) dosing).slots.get 0).base = ⟨.faulty .cal, none⟩ ∧
      ((after (.sample 0 1 0 5 9) dosing).slots.get 0).base = ⟨.faulty .fault, none⟩ := by
  decide +kernel

theorem test_hyps_LineEchoConfirmsOrFaults :
    (dosing.gate.get 0).state = .dosing ∧ (dosing.gate.get 0).confirmation = .confirmed ∧
      (dosing.gate.get 0).admitted = 500 ∧
      ((withLine dosing { dosing.gate.get 0 with confirmation := .awaiting (some 3) }).gate.get
        0).confirmation = .awaiting (some 3) := by decide +kernel

/-- An echo to a DISABLED or a FAULTED line and an equal one to a CONFIRMED line are recorded only. -/
theorem test_echo_recorded :
    (∀ l ∈ [{ Line.atReset with state := .disabled },
        { Line.atReset with state := .faulted, fault := some .noEcho }],
      ((withLine dosing l).lineEcho 0 7).gate.get 0 = { l with lastEcho := some 7 }) ∧
    (dosing.lineEcho 0 500).gate.get 0 = dosing.gate.get 0 := by decide +kernel

/-- Another echo to a CONFIRMED line: 0 to its pump and LINE_FAULT with the echo. -/
theorem test_mismatch_echo :
    let t := dosing.lineEcho 0 501
    (t.gate.get 0).fault = some .mismatch ∧ t.pins.permits.get 0 = false ∧
      (t.ports.segments.get 0).own = [⟨1, 0, 0⟩] ∧
      t.ports.notices = [⟨.lineFault, .line, 1, .mismatch, 501⟩] := by decide +kernel

theorem test_rogue_echo :
    ((after (.echo 0 1 0 7) (supervised 5 false)).gate.get 0).fault = some .rogue := by decide +kernel

theorem test_hyps_EchoReachesItsOwner :
    Listed dosing 0 1 ∧ dosing.lookupKey 1 7 = none ∧ dosing.lookupKey 1 0 = some 0 ∧
      dosing.lookupKey 1 1 = some 1 ∧ (dosing.tables.admission.get 1).objectIndex = 1 ∧
      dosing.lookupKey 1 2 = some 2 ∧ (dosing.tables.admission.get 2).object = .backwashPump ∧
      dosing.lookupKey 1 4 = some 4 := by decide +kernel

/-- F1 with other times. -/
def withTimes (s : State) (scour settle : Nat) : State :=
  s.updTables fun t => { t with filters := t.filters.upd 0 fun c => { c with
    scourTime := scour, settleTime := settle } }

theorem test_hyps_ValveEchoMovesTheFilterOn :
    (let s := withFilter dosing ⟨.unused, some 9, false, none⟩ none
     s.backwashOf 0 = none ∧ (s.seq.filters.get 0).attempt.isSome = true) ∧
      dosing.backwashOf 0 = none ∧ (dosing.seq.filters.get 0).attempt = none ∧
      pumping.backwashOf 0 = some ⟨.wash, .dwell 7, none, true, false, 9⟩ ∧
      (washing .wash (.move .valves 4 9)).backwashOf 0
        = some ⟨.wash, .move .valves 4 9, none, true, false, 9⟩ ∧
      (washing .isolate (.move .valves 2 9)).backwashOf 0
        = some ⟨.isolate, .move .valves 2 9, none, true, false, 9⟩ ∧
      0 < ((washing .isolate (.move .valves 2 9)).tables.filters.get 0).scourTime ∧
      (let s := withTimes (washing .isolate (.move .valves 2 9)) 0 0
       (s.tables.filters.get 0).scourTime = 0 ∧ s.tankAbort = some .readingLost ∧
         (tanksOk s).tankAbort = none ∧ ((tanksOk s).backwashOf 0).isSome = true) := by
  decide +kernel

theorem test_hyps_valve_stages :
    (washing .scour (.move .valves 3 9)).backwashOf 0
        = some ⟨.scour, .move .valves 3 9, none, true, false, 9⟩ ∧
      (withTimes (washing .settle (.move .valves 2 9)) 0 0).backwashOf 0
        = some ⟨.settle, .move .valves 2 9, none, true, false, 9⟩ ∧
      ((withTimes (washing .settle (.move .valves 2 9)) 0 0).tables.filters.get 0).settleTime = 0 ∧
      0 < ((washing .settle (.move .valves 2 9)).tables.filters.get 0).settleTime ∧
      0 < ((washing .rinse (.move .valves 5 9)).tables.filters.get 0).rinseTime ∧
      (washing .rinse (.move .valves 5 9)).backwashOf 0
        = some ⟨.rinse, .move .valves 5 9, none, true, false, 9⟩ ∧
      (washing .return (.move .valves 1 9)).backwashOf 0
        = some ⟨.return, .move .valves 1 9, none, true, false, 9⟩ ∧
      (withFilter dosing ⟨.backwash ⟨.return, .move .valves 1 9, some (.starved, .wash), true, false, 9⟩,
        none, true, none⟩ (some 0)).backwashOf 0
        = some ⟨.return, .move .valves 1 9, some (.starved, .wash), true, false, 9⟩ := by
  decide +kernel

theorem test_hyps_pump_echo :
    (washing .wash (.move .pump 1 9)).backwashOf 0
        = some ⟨.wash, .move .pump 1 9, none, true, false, 9⟩ ∧
      0 < ((washing .wash (.move .pump 1 9)).tables.filters.get 0).washTime ∧
      (washing .wash (.move .pump 0 9)).backwashOf 0
        = some ⟨.wash, .move .pump 0 9, none, true, false, 9⟩ ∧ dosing.backwashOf 1 = none := by
  decide +kernel

theorem test_hyps_UnexecutedRequestsAreAnsweredOrDropped :
    8 ≤ (crowded dosing).placesTaken ∧ dosing.placesTaken < 8 ∧ (30 : Byte).toNat = 30 ∧
      (29 : Byte).toNat = 29 := by decide +kernel

theorem test_hyps_TransmitterTakesTheNextFrame :
    (restarting [⟨6, 1, .done, []⟩]).ports.responses = ⟨6, 1, .done, []⟩ :: [] ∧
      State.reset.ports.responses = [] ∧ State.reset.ports.notices = startNotice :: [] ∧
      (let s := dosing.forwardUp ⟨0, 1, .sample, 0, [0, 0, 0]⟩
       s.ports.notices = [] ∧ s.ports.forwarded = ⟨0, 1, .sample, 0, [0, 0, 0]⟩ :: []) ∧
      (let s := dosing.originate (some 0) 5
       s.segState 0 = .up ∧ (s.ports.segments.get 0).own = ⟨1, 0, 5⟩ :: []) ∧
      (let s := dosing.forwardDown 0 ⟨1, 0, 5⟩
       (s.ports.segments.get 0).own = [] ∧
         (s.ports.segments.get 0).forwarded = ⟨1, 0, 5⟩ :: []) := by decide +kernel

theorem test_hyps_SegmentFollowsItsSignal :
    dosing.segState 0 = .up ∧ (withSegment dosing .lost).segState 0 = .lost ∧
      (withSegment dosing .isolated).segState 0 = .isolated ∧
      (withSegment dosing .recovering).segState 0 = .recovering ∧
      (withSegment dosing .forced).segState 0 = .forced := by decide +kernel

/-- The backwash pump on station 2 of S2. -/
def pumpApart (s : State) : State :=
  s.updTables fun t => { t with
    directory := t.directory.set 1 (some 1)
    admission := t.admission.set 2 ⟨true, 2, 2, .backwashPump, 0⟩ }

/-- S`g+1` has lost its signal. -/
def lost (s : State) (g : SegIx) : State := s.updSegment g fun x => { x with state := .lost }

theorem test_hyps_backwash_cut_off : BackwashOk (lost pumping 0) ∧ (lost pumping 0).segState 0 = .lost ∧
    (lost pumping 0).backwashOf 0 = some ⟨.wash, .dwell 7, none, true, false, 9⟩ := by decide +kernel

theorem test_hyps_entries_cut_off :
    (lost pumping 0).segOfEntry ((lost pumping 0).valveEntry 0) = some 0 ∧
      (lost pumping 0).segOfEntry ((lost pumping 0).lineEntry 0) = some 0 ∧
      ((lost pumping 0).gate.get 0).state ≠ .disabled ∧
      (withSegment pumping .recovering).segState 0 = .recovering := by decide +kernel

theorem test_hyps_pump_cut_off :
    BackwashOk (lost (pumpApart pumping) 1) ∧ (lost (pumpApart pumping) 1).segState 1 = .lost ∧
      (lost (pumpApart pumping) 1).segOfEntry ((lost (pumpApart pumping) 1).valveEntry 0) ≠ some 1 ∧
      (lost (pumpApart pumping) 1).segOfEntry (lost (pumpApart pumping) 1).pumpEntry = some 1 := by
  decide +kernel

theorem test_hyps_other_cut_off :
    BackwashOk (lost pumping 3) ∧ (lost pumping 3).segState 3 = .lost ∧
      (lost pumping 3).segOfEntry ((lost pumping 3).valveEntry 0) ≠ some 3 ∧
      (lost pumping 3).segOfEntry (lost pumping 3).pumpEntry ≠ some 3 := by decide +kernel

theorem test_hyps_SegmentIsForcedAndRestored :
    Ready dosing ∧ dosing.modeNow.loads = true ∧ Ready (withSegment dosing .forced) ∧
      (withSegment dosing .forced).modeNow.loads = true ∧
      (withSegment dosing .forced).segState 0 = .forced ∧ dosing.segState 3 ≠ .forced ∧
      (4 : Byte).toNat = (3 : SegIx).val + 1 := by decide +kernel

/-! ## Every hypothesis is met: flow, readings, lines and programmes -/

/-- C1 starved at its limit. -/
def starved (reported : Bool) : State :=
  dosing.updCircuit 0 fun x => { x with
    flowClass := .low, starvedTimer := 60, starvedReported := reported }

theorem test_hyps_PulsesCountAndLongStarvationIsReported :
    ((starved false).tables.circuits.get 0).enabled = true ∧
      ((starved false).flowClass 0).starved = true ∧
      ((starved false).flow.circuits.get 0).starvedReported = false ∧
      ((starved false).tables.circuits.get 0).starvedLimit
        ≤ ((starved false).flow.circuits.get 0).starvedTimer ∧
      (starved false).ports.notices.length < 32 ∧
      ((starved true).flow.circuits.get 0).starvedReported = true := by decide +kernel

/-- A window of 2 s in which FI1 counted `n` pulses. -/
def counted (n : Nat) (now : FlowClass) (rising : Option FlowClass) : State :=
  let s := dosing.updCircuit 0 fun x => { x with flowClass := now, rising := rising }
  { s with flow := { s.flow with
    windowSeconds := 2, inputs := s.flow.inputs.set 0 ⟨n, 0, false⟩ } }

theorem test_hyps_WindowEndJudgesTheCircuits :
    2 ≤ (counted 600 .low none).flow.windowSeconds ∧ dosing.flow.windowSeconds < 2 ∧
      ((counted 600 .low none).tables.circuits.get 0).enabled = true ∧
      ((counted 600 .low none).tables.circuits.get 1).enabled = false := by decide +kernel

/-- The thresholds at their boundaries, and the rise at the second window. -/
theorem test_window_boundaries :
    ((after .windowEnd (counted 600 .low none)).flow.circuits.get 0).measured = .full ∧
      ((after .windowEnd (counted 599 .low none)).flow.circuits.get 0).measured = .reduced ∧
      ((after .windowEnd (counted 299 .low none)).flow.circuits.get 0).measured = .low ∧
      (after .windowEnd (counted 4095 .low none)).flowClass 0 = .none ∧
      (after .windowEnd (counted 600 .low none)).flowClass 0 = .low ∧
      (after .windowEnd (counted 600 .low (some .reduced))).flowClass 0 = .reduced := by
  decide +kernel

/-- Slot 0 VALID at an age, with or without a substitute. -/
def aged (age : Nat) (sub : Option Substitute) : State :=
  withSlot (supervised 5 false) 0 ⟨⟨.valid, some ⟨700, age⟩⟩, sub⟩

theorem test_hyps_ReadingsAgeAndSubstitutesEnd :
    ((aged 61 none).tables.slots.get 0).staleLimit < 61 ∧ ((aged 61 none).slots.get 0).sub = none ∧
      ((aged 61 none).slots.get 0).base = ⟨.valid, some ⟨700, 61⟩⟩ ∧
      (aged 61 (some ⟨5, 9⟩)).slots.get 0 = ⟨⟨.valid, some ⟨700, 61⟩⟩, some ⟨5, 9⟩⟩ ∧
      ((aged 60 none).slots.get 0).base = ⟨.valid, some ⟨700, 60⟩⟩ ∧
      60 ≤ ((aged 60 none).tables.slots.get 0).staleLimit ∧
      ((aged 60 (some ⟨5, 0⟩)).slots.get 0).sub = some ⟨5, 0⟩ ∧ Ready (aged 60 (some ⟨5, 9⟩)) ∧
      (aged 60 (some ⟨5, 9⟩)).modeNow = .supervised := by decide +kernel

theorem test_hyps_SubstituteIsSet :
    Ready dosing ∧ dosing.modeNow = .supervised ∧
      (dosing.tables.slots.get 11).minimum ≤ 5 * 256 + 120 ∧
      5 * 256 + 120 ≤ (dosing.tables.slots.get 11).maximum ∧
      ¬ 5 * 256 + 121 ≤ (dosing.tables.slots.get 11).maximum := by decide +kernel

theorem test_hyps_ResumeTimerEnds :
    let s := withLine dosing { Line.atReset with state := .resuming, requested := 100 }
    (s.gate.get 0).state = .resuming ∧ (s.gate.get 0).resume = 0 ∧ (s.gate.get 0).admitted = 0 ∧
      s.otherDosing 0 = false ∧
      (let t := { s with gate := s.gate.set 1 (dosing.gate.get 0) }
       (t.gate.get 0).state = .resuming ∧ t.otherDosing 0 = true) ∧
      (dosing.gate.get 0).state ≠ .resuming := by decide +kernel

theorem test_hyps_UnconfirmedLineFaults :
    let s := withLine dosing { dosing.gate.get 0 with confirmation := .awaiting (some 0) }
    (s.gate.get 0).confirmation = .awaiting (some 0) ∧ (s.gate.get 0).state ≠ .disabled ∧
      (s.gate.get 0).state ≠ .faulted ∧ s.seq.restore.running = false := by decide +kernel

theorem test_hyps_ClearedLineIsStopped :
    Ready (line .faulted Causes.empty) ∧ (line .faulted Causes.empty).modeNow.loads = true ∧
      ((line .faulted Causes.empty).gate.get 0).state = .faulted ∧
      ((line .faulted Causes.empty).gate.get 1).state ≠ .faulted := by decide +kernel

/-- A programme of two steps on D1, and one with a BATCH step. -/
def running (position remaining : Nat) : State :=
  withProg dosing ⟨.a, position, remaining, none, false⟩

/-- D1 in a BATCH step of 3 ml with 2 ml delivered and no time left. -/
def batching : State :=
  withProg (dosing.updTables fun t => { t with steps := t.steps.set 0 ⟨.batch, 500, 5, some 3, true⟩ })
    ⟨.a, 0, 0, some ⟨2, 0⟩, false⟩

theorem test_hyps_ProgrammeStepEnds :
    (running 0 0).runner.progs.get 0 = some ⟨.a, 0, 0, none, false⟩ ∧
      ((running 0 0).tables.lines.get 0).range .a = ⟨some 0, some 2⟩ ∧
      ((running 0 0).stepOf 0 ⟨.a, 0, 0, none, false⟩).kind = .rate ∧
      ((running 1 0).stepOf 0 ⟨.a, 1, 0, none, false⟩).loop = false ∧
      (let s := (running 1 0).updTables fun t => { t with
          steps := t.steps.set 1 ⟨.rate, 5, 5, none, true⟩ }
       (s.stepOf 0 ⟨.a, 1, 0, none, false⟩).loop = true) ∧
      (batching.stepOf 0 ⟨.a, 0, 0, some ⟨2, 0⟩, false⟩).kind = .batch ∧
      (batching.stepOf 0 ⟨.a, 0, 0, some ⟨2, 0⟩, false⟩).volume = some 3 ∧
      (running 0 9).runner.progs.get 0 = some ⟨.a, 0, 9, none, false⟩ ∧
      dosing.runner.progs.get 0 = none := by decide +kernel

/-- D1 in programme A of two steps, in FALLBACK. -/
def feeding (position : Nat) : State :=
  { running position 0 with mode := (plant (.fallback ⟨0, 24, 0, none, 10⟩)).mode }

theorem test_hyps_steps_begin_and_end :
    (feeding 0).lineTest 0 0 (((feeding 0).modeNow == .fallback) || false) = none ∧
      (feeding 1).lineTest 0 500 ((feeding 1).modeNow == .fallback) = none ∧
      (running 0 0).lineTest 0 0 false = some .mode ∧
      (let s := withLine (feeding 0) { Line.atReset with state := .resuming }
       s.lineTest 0 0 true = none ∧ (s.gate.get 0).state = .resuming) ∧
      batching.pins.permits.get 0 = true ∧ (2 : Nat) + (0 + 500) / 3600 < 3 ∧
      3 ≤ 2 + (3300 + 500) / 3600 ∧ (batching.gate.get 0).confirmed = 500 ∧
      (batching.tables.lines.get 0).range .a = ⟨some 0, some 2⟩ := by decide +kernel

/-- The next step begins, and the last one ends the programme with its notice. -/
theorem test_steps_begin_and_end :
    (after (.programmeStepEnd 0) (feeding 0)).runner.progs.get 0 = some ⟨.a, 1, 60, none, false⟩ ∧
      (after (.programmeStepEnd 0) (feeding 1)).runner.progs.get 0 = none ∧
      (after (.programmeStepEnd 0) (feeding 1)).ports.notices
        = [⟨.programmeEnd, .line, 1, .completed, 1⟩] := by decide +kernel

theorem test_hyps_ShockProgrammeStartsAndStops :
    Ready dosing ∧ dosing.modeNow = .supervised ∧ (dosing.tables.lines.get 0).enabled = true ∧
      (dosing.tables.lines.get 0).range .shockA = ⟨some 0, some 2⟩ ∧
      (dosing.tables.lines.get 0).range .shockB = ⟨some 2, some 1⟩ ∧
      dosing.shockActive 0 = false ∧ dosing.lineTest 0 (dosing.stepAt 0).rate true = none ∧
      (line .faulted Causes.empty).lineTest 0 500 true = some .faultedLine ∧
      ((running 0 9).runner.progs.get 0).isSome = true ∧ Ready (running 0 9) ∧
      (running 0 9).modeNow = .supervised := by decide +kernel

theorem test_hyps_SnapshotsLatchAndRelease :
    Ready dosing ∧ 0 < 15 * 256 + 255 ∧ 15 * 256 + 255 < 4096 ∧ dosing.modeNow.loads = true ∧
      (12 : Byte).toNat = (11 : LineIx).val + 1 := by decide +kernel

/-! ## Every hypothesis is met: filters, mode, time and management -/

theorem test_hyps_RunHoursCountAndHoldOffEnds :
    (dosing.seq.filters.get 0).state = .inService ∧
      dosing.flowClass (dosing.tables.filters.get 0).circuit ≠ .none ∧
      (dosing.mode.retained.runHours.get 0).seconds + 1 < 3600 ∧
      ((dosing.putRunHours 0 ⟨65535, 3599⟩).mode.retained.runHours.get 0).seconds + 1 = 3600 ∧
      (dosing.seq.filters.get 1).state ≠ .inService ∧
      ((withArb dosing fun a => { a with holdOff := some 0 }).arbiter.filters.get 0).holdOff = some 0 ∧
      (dosing.arbiter.filters.get 0).holdOff ≠ some 0 := by decide +kernel

/-- F1 at the end of its check with a pressure of 800 mbar. -/
def checking (ineffective : Nat) (ignored : Bool) : State :=
  withSlot (withArb dosing fun a => { a with
    check := some 0, ineffective := ineffective, dpIgnored := ignored }) 12
    ⟨⟨.valid, some ⟨800, 0⟩⟩, none⟩

theorem test_hyps_CheckTakesItsVerdict :
    ((checking 0 false).arbiter.filters.get 0).check = some 0 ∧ (checking 0 false).pressureHigh 0 = true ∧
      ((checking 1 false).arbiter.filters.get 0).ineffective = 1 ∧
      (checking 1 false).pressureHigh 0 = true ∧
      ((checking 2 true).arbiter.filters.get 0).dpIgnored = true ∧
      (withSlot (checking 1 false) 12 ⟨⟨.valid, some ⟨799, 0⟩⟩, none⟩).pressureHigh 0 = false := by
  decide +kernel

/-- The restore at the end of its limit. -/
def restoring (remaining : Nat) : State :=
  let s := plant .startup
  { s with seq := { s.seq with restore := ⟨true, remaining, .fill true, false⟩ } }

theorem test_hyps_AttemptsAndTheRestoreRunOut :
    (let s := withFilter dosing ⟨.unused, some 0, false, none⟩ none
     (s.seq.filters.get 0).attempt = some 0 ∧ s.seq.restore.running = false) ∧
      (dosing.seq.filters.get 0).attempt ≠ some 0 ∧ (restoring 0).seq.restore.running = true ∧
      (restoring 0).seq.restore.remaining = 0 ∧ (restoring 1).seq.restore.remaining ≠ 0 ∧
      (let s := withFilter (withLine (restoring 0) { Line.atReset with
         state := .stopped, confirmation := .awaiting (some 9) }) ⟨.unused, some 9, false, none⟩ none
       (s.tables.filters.get 0).assigned = true ∧ (s.seq.filters.get 0).attempt.isSome = true ∧
         (s.seq.filters.get 1).attempt = none ∧ s.backwashOf 1 = none ∧
         (s.gate.get 0).state = .stopped ∧ (s.gate.get 0).confirmation ≠ .confirmed ∧
         s.seq.restore.pumpSettled = false ∧ s.pumpEntry = some 2) := by decide +kernel

/-- The retained record at the start-up decision. -/
def starting (flag commissioned keyswitch : Bool) (count : Nat) : State :=
  let s := restoring 0
  { s with
    pins := { s.pins with keyswitch := keyswitch }
    mode := { s.mode with retained := { s.mode.retained with
      lockoutFlag := flag, commissioned := commissioned, recoveryCount := count } } }

theorem test_hyps_StartUpDecisionTakesTheFirstTest :
    (starting true true false 0).startUpDecision.modeNow = .lockout ∧
      (starting false true false 4).startUpDecision.modeNow = .lockout ∧
      (starting false false false 3).startUpDecision.modeNow = .commission ∧
      (starting false true true 3).startUpDecision.modeNow = .commission ∧
      (starting false true false 3).startUpDecision.modeNow = .hold := by decide +kernel

theorem test_hyps_TravelTimerEndsAMove :
    (let s := washing .scour (.move .valves 3 0)
     s.backwashOf 0 = some ⟨.scour, .move .valves 3 0, none, true, false, 9⟩ ∧
       s.arbiter.busy = some 0 ∧ BackwashOk s) ∧
      (washing .return (.move .valves 1 0)).backwashOf 0
        = some ⟨.return, .move .valves 1 0, none, true, false, 9⟩ := by decide +kernel

theorem test_hyps_DwellEndsBeginTheNextStep :
    (washing .wash (.dwell 0)).backwashOf 0 = some ⟨.wash, .dwell 0, none, true, false, 9⟩ ∧
      (washing .settle (.dwell 0)).backwashOf 0 = some ⟨.settle, .dwell 0, none, true, false, 9⟩ ∧
      (washing .rinse (.dwell 0)).backwashOf 0 = some ⟨.rinse, .dwell 0, none, true, false, 9⟩ ∧
      (tanksOk (washing .scour (.dwell 0))).backwashOf 0
        = some ⟨.scour, .dwell 0, none, true, false, 9⟩ ∧
      (tanksOk (washing .scour (.dwell 0))).tankAbort = none := by decide +kernel

theorem test_hyps_FilterRequestsTakeEffect :
    Ready dosing ∧ dosing.modeNow.loads = true ∧ (dosing.tables.filters.get 0).assigned = true ∧
      (dosing.seq.filters.get 0).state = .inService ∧ dosing.backwashOf 0 = none ∧
      ((withArb dosing fun a => { a with requests := ⟨false, false, false, true⟩ }).arbiter.filters.get
        0).requests.manual = true ∧
      pumping.backwashOf 0 = some ⟨.wash, .dwell 7, none, true, false, 9⟩ ∧ Ready pumping ∧
      ((withFilter dosing ⟨.faulted .lost, none, false, none⟩ none).seq.filters.get 0).state
        = .faulted .lost ∧
      ((withArb dosing fun a => { a with dpIgnored := true }).arbiter.filters.get 0).dpIgnored
        = true := by decide +kernel

theorem test_hyps_SetLowestRotatesTheRanks :
    Ready dosing ∧ dosing.modeNow.loads = true ∧ RanksOk dosing ∧
      (dosing.arbiter.filters.get 7).rank = 0 ∧ (plant .startup).modeNow.loads = false ∧
      Ready (plant .startup) ∧ (9 : Byte).toNat = 9 := by decide +kernel

/-- FALLBACK with a timer, a return count and a return timer. -/
def fallback (timer count : Nat) (left : Option Nat) : State :=
  plant (.fallback ⟨timer, 24, count, left, 10⟩)

/-- SUPERVISED, late at the end of a period, with a recovery count. -/
def silent (count : Nat) : State :=
  let s := supervised 10 true
  { s with mode := { s.mode with retained := { s.mode.retained with recoveryCount := count } } }

theorem test_hyps_ModeTimersEnd :
    (supervised 10 false).mode.state = .supervised ⟨10, 10, false⟩ ∧
      (silent 2).mode.retained.recoveryCount < (silent 2).tables.params.recoveryLimit ∧
      (silent 3).tables.params.recoveryLimit ≤ (silent 3).mode.retained.recoveryCount ∧
      (silent 3).mode.retained.recoveryCount < 5 ∧
      (fallback 0 2 (some 0)).mode.state = .fallback ⟨0, 24, 2, some 0, 10⟩ ∧
      24 * 3600 ≤ 86400 ∧ (fallback 86400 0 none).modeNow = .fallback := by decide +kernel

/-- D2 at an injection point of its own. -/
def apart (s : State) : State :=
  s.updTables fun t => { t with lines := t.lines.upd 1 fun c => { c with injectionPoint := 2 } }

theorem test_hyps_fallback_entry :
    let s := apart (silent 2)
    s.mode.state = .supervised ⟨10, 10, true⟩ ∧ (s.tables.lines.get 0).enabled = true ∧
      s.clock.openFlags.get (s.tables.lines.get 0).circuit = true ∧
      (s.tables.lines.get 0).range .a = ⟨some 0, some 2⟩ ∧ TakesProgramme s 0 (s.stepAt 0).rate ∧
      (s.tables.lines.get 1).enabled = true ∧ ((s.tables.lines.get 1).range .a).first = none := by
  decide +kernel

/-- D1 DOSING under its programme at the rate its terms give, in FALLBACK before the third REFRESH. -/
def returning : State :=
  let s := withSlot (withLine (fallback 0 2 (some 4)) { dosing.gate.get 0 with source := .programme }) 0
    ⟨⟨.valid, some ⟨100, 0⟩⟩, none⟩
  withProg s ⟨.a, 0, 9, none, false⟩

theorem test_hyps_fallback_return :
    Ready returning ∧ returning.mode.state = .fallback ⟨0, 24, 2, some 4, 10⟩ ∧
      (∀ i : LineIx, Settled returning i) ∧ (returning.gate.get 0).state = .dosing ∧
      (returning.gate.get 0).source = .programme := by decide +kernel

theorem test_hyps_RefreshIsJudged :
    Ready (supervised 5 false) ∧ 10 ≤ 2 * 5 ∧ Ready (supervised 4 false) ∧ 2 * 4 < 10 ∧
      Ready (fallback 0 1 (some 4)) ∧ Ready (fallback 0 2 (some 4)) ∧
      (supervised 4 false).placesTaken < 8 := by decide +kernel

theorem test_hyps_ModeRequestsTakeEffect :
    Ready (plant .hold) ∧ (plant .hold).modeNow = .hold ∧ Ready dosing ∧
      dosing.modeNow = .supervised ∧ Ready locked ∧ locked.modeNow = .lockout ∧
      locked.pins.keyswitch = true ∧ (plant .lockout).pins.keyswitch = false ∧
      Ready (writing dosing false) ∧ (writing dosing false).mgmt.write ≠ none ∧
      (dosing.gate.get 0).state ≠ .disabled ∧ (dosing.gate.get 0).causes.hold = false ∧
      (dosing.gate.get 0).causes.lockout = false := by decide +kernel

/-- The clock at a time. -/
def atTime (day minute second : Nat) : State :=
  dosing.updClock fun c => { c with day := day, minute := minute, second := second }

theorem test_hyps_MinuteChangeAdvancesTheWeek :
    (atTime 6 1439 59).clock.second = 59 ∧ (after .minuteChange (atTime 6 1439 59)).clock.day = 0 ∧
      (after .minuteChange (atTime 6 1439 59)).clock.minute = 0 ∧
      (atTime 6 1439 58).clock.second ≠ 59 := by decide +kernel

/-- FALLBACK at the end of a minute with C1's OPEN flag clear and no valid clock. -/
def closing : State :=
  (apart (fallback 0 0 none)).updClock fun c => { c with second := 59, openFlags := .fill false }

theorem test_hyps_switch_of_programmes :
    closing.clock.second = 59 ∧ closing.modeNow = .fallback ∧
      (after .minuteChange closing).clock.openFlags.get 0 = true ∧
      closing.clock.openFlags.get 0 = false ∧ (closing.tables.lines.get 0).enabled = true ∧
      TakesProgramme closing 0 (closing.stepAt 0).rate ∧
      (closing.gate.get 0).causes.hold = false ∧ (closing.gate.get 0).causes.lockout = false ∧
      (let s := closing.updTables fun t => { t with
         lines := t.lines.upd 0 fun c => { c with progA := ⟨none, none⟩ } }
       ((s.tables.lines.get 0).range .a).first = none ∧
         ((s.tables.lines.get 0).range .b).steps.isSome = true ∧
         (after .minuteChange s).clock.openFlags.get 0 = true) ∧
      dosing.modeNow ≠ .fallback ∧ (dosing.tables.lines.get 0).kind ≠ .coag := by decide +kernel

/-- An entry from 420 to 1290 on every day for C1. -/
def open' : TimeEntry := ⟨true, 127, 420, 1290, 1, .openHours⟩

theorem test_coverage_boundaries :
    open'.covers .openHours 0 6 419 = false ∧ open'.covers .openHours 0 6 420 = true ∧
      open'.covers .openHours 0 6 1289 = true ∧ open'.covers .openHours 0 6 1290 = false ∧
      dosing.clock.valid = false ∧
      (dosing.updClock fun c => { c with valid := true }).clock.valid = true := by decide +kernel

theorem test_hyps_SetClockSetsTheTime :
    Ready dosing ∧ dosing.modeNow ≠ .startup ∧ Ready (plant .startup) ∧
      (plant .startup).modeNow = .startup ∧ 5 * 256 + 159 = 1439 := by decide +kernel

theorem test_hyps_RequestChecksComeInOrder :
    requestOf (.refresh 1 []) = some (.refresh, 1, []) ∧ 8 ≤ (crowded dosing).placesTaken ∧
      accepts false .refresh (plant .hold).modeNow = false ∧ (plant .hold).placesTaken < 8 ∧
      accepts false .setClock (restarting []).modeNow = true ∧ (restarting []).mode.restart ≠ none ∧
      isPeriodWrite [9, 0, 1, 0, 0, 0, 5] = true ∧ (writing dosing false).mgmt.write ≠ none ∧
      accepts false .setField (writing dosing false).modeNow = true ∧ dosing.mode.restart = none ∧
      dosing.mgmt.write = none ∧ dosing.placesTaken < 8 := by decide +kernel

/-- The argument check on each side of its bounds. -/
theorem test_arguments_bounds :
    let ok := argumentsOk dosing
    (ok .refresh [] = true ∧ ok .refresh [0] = false) ∧
    (ok .setClock [6, 5, 159, 59] = true ∧ ok .setClock [6, 5, 160, 59] = false) ∧
    (ok .setField [9, 0, 8, 0, 0, 0, 0] = true ∧ ok .setField [9, 0, 9, 0, 0, 0, 0] = false) ∧
    (ok .getField [200, 0, 0] = false ∧ ok .getState [2, 4, 0] = true ∧ ok .getState [2, 5, 0] = false) ∧
    (ok .setSubstitute [0, 0, 0, 0] = false ∧ ok .clearSubstitute [11] = true ∧
      ok .clearSubstitute [12] = false) ∧
    (ok .startProgramme [1, 1] = true ∧ ok .startProgramme [1, 2] = false ∧
      ok .startProgramme [3, 0] = false) ∧
    (ok .backwashNow [1] = true ∧ ok .backwashNow [2] = false) ∧
    (ok .stopProgramme [12] = true ∧ ok .stopProgramme [13] = false) ∧
    (ok .setLowest [8] = true ∧ ok .setLowest [9] = false) ∧
    (ok .clearFault [9, 8] = true ∧ ok .clearFault [9, 9] = false ∧ ok .clearFault [5, 12] = true) ∧
    (ok .snapshot [15, 255] = true ∧ ok .snapshot [16, 0] = false ∧ ok .snapshot [0, 0] = false) ∧
    (ok .readSnapshot [12, 1] = true ∧ ok .readSnapshot [12, 2] = false) ∧
    (ok .isolateSegment [4] = true ∧ ok .isolateSegment [0] = false) := by decide +kernel

theorem test_hyps_FieldsAndConditionsAreReadAndWritten :
    (dosing.writeField (.param 3) 0).2 = .done ∧ (dosing.writeField (.param 3) 2).2 = .badArg ∧
      Ready dosing ∧ dosing.modeNow.loads = true ∧ FieldRef.of 9 0 4 = some (.param 3) ∧
      isPeriodWrite [9, 0, 4, 0, 0, 0, 0] = false ∧ dosing.mgmt.write = none ∧
      (writing dosing false).mgmt.write ≠ none ∧
      (dosing.tables.params.put 3 0).isSome = true := by decide +kernel

theorem test_getState_answers :
    ((dosing.stateItems 10 0).map List.length).isSome = true ∧
      (dosing.stateItems 10 0).bind (fun x => itemData x 0) ≠ none := by decide +kernel

theorem test_hyps_SettingsAreWrittenAndAnswered :
    Ready dosing ∧ dosing.modeNow.loads = true ∧ dosing.mgmt.write = none ∧
      (plant .commission).modeNow = .commission ∧ Ready (plant .commission) ∧
      (writing dosing false).mgmt.write = some ⟨false, 3, 2⟩ ∧
      (writing (plant .commission) true).mgmt.write = some ⟨true, 3, 2⟩ ∧
      Ready (writing (plant .commission) true) := by decide +kernel

/-- A write with `left` seconds left ends at the second that finds none left (R166). -/
theorem test_write_ends_within_four_seconds :
    let s := fun left => ({ dosing with mgmt := { dosing.mgmt with
      write := some ⟨false, 3, left⟩ } } : State)
    (s 2).tick.pending.contains .settingsWriteEnd = false ∧
      (s 1).tick.pending.contains .settingsWriteEnd = true := by decide +kernel

/-- A grant that cancels a check judges a high pressure afresh, and an abort leaves it (R98, R107). -/
theorem test_grant_ends_the_suppression :
    let s := withSlot (withArb (asking ⟨false, false, true, false⟩) fun a => { a with check := some 9 }) 12
      ⟨⟨.valid, some ⟨800, 0⟩⟩, none⟩
    let t := s.arbitrate
    (t.arbiter.filters.get 0).requests = ⟨true, false, true, false⟩ ∧
      (t.arbiter.filters.get 0).check = none ∧
      (((t.abort 0 .starved).valveEcho 0 1).arbiter.filters.get 0).requests.dp = true := by
  decide +kernel

theorem test_hyps_HardwiredInputsAct :
    dosing.pins.plantStop = false ∧ PermitsOk dosing ∧ BackwashOk dosing ∧
      (dosing.gate.get 0).state ≠ .disabled ∧ (dosing.gate.get 0).causes.plantStop = false ∧
      (after .plantStopAsserted dosing).pins.plantStop = true := by decide +kernel

theorem test_hyps_plantStop_aborts :
    PermitsOk pumping ∧ BackwashOk pumping ∧ pumping.pins.plantStop = false ∧
      (after .plantStopAsserted pumping).backwashOf 0 = some ⟨.return, .move .valves 1 60,
        some (.plantStop, .wash), true, false, 9⟩ := by decide +kernel

theorem test_hyps_plantStop_in_return :
    BackwashOk (washing .return (.move .valves 1 9)) ∧ PermitsOk (washing .return (.move .valves 1 9)) ∧
      (washing .return (.move .valves 1 9)).pins.plantStop = false := by decide +kernel

/-- F1 in RINSE by the supervisor's abort. -/
def rinsing : State :=
  withFilter (supervised 5 false)
    ⟨.backwash ⟨.rinse, .dwell 7, some (.supervisorAbort, .wash), true, false, 9⟩, none, false, none⟩
    (some 0)

theorem test_hyps_plantStop_in_rinse :
    BackwashOk rinsing ∧ PermitsOk rinsing ∧ rinsing.pins.plantStop = false ∧
      rinsing.backwashOf 0 = some ⟨.rinse, .dwell 7, some (.supervisorAbort, .wash), true, false, 9⟩ := by
  decide +kernel

/-! ## Every hypothesis is met: own frames, changed readings, changes of class, stages -/

/-- Tables with the plant's keys and steps, its first sample entry changed, are as consistent as the plant's. -/
theorem test_tables_ok (t : Tables) (e : MapEntry) (ha : t.admission = plantTables.admission)
    (hm : t.sampleMap = plantTables.sampleMap.set 0 e) (hs : t.steps = plantTables.steps)
    (hp : t.params = plantTables.params) : TablesOk t := by
  have only : ∀ j : Fin 64, ((plantTables.sampleMap.set 0 e).get j).enabled = true → j = 0 := by
    intro j h
    by_cases h0 : j = 0
    · exact h0
    · rw [Table.get_set_ne _ _ h0] at h
      exact absurd h (by revert j; decide +kernel)
  have ok := test_plantTables_ok
  unfold TablesOk
  rw [ha, hm, hs, hp]
  exact ⟨ok.1, ok.2.1, fun j k hj hk _ _ => (only j hj).trans (only k hk).symm, ok.2.2.2⟩

/-- The plant's sample key mapped to another slot. -/
def mapped (s : State) (k : SlotIx) : State :=
  s.updTables fun t => { t with sampleMap := t.sampleMap.set 0 ⟨true, 1, 0, k⟩ }

/-- D1 of another kind, with another resume delay. -/
def ofKind (s : State) (kind : LineKind) (delay : Nat) : State :=
  s.updTables fun t => { t with lines := t.lines.upd 0 fun c => { c with
    kind := kind, resumeDelay := delay } }

/-- The own queue of S1. -/
def own (s : State) : List Cmd := (s.ports.segments.get 0).own

/-- The tables of the plants that the witnesses below use are consistent. -/
theorem test_hyps_tables (k : SlotIx) (kind : LineKind) (delay : Nat) :
    TablesOk (apart (ofKind (mapped dosing k) kind delay)).tables ∧
      TablesOk (withTimes (tanksOk (mapped pumping k)) 0 0).tables :=
  ⟨test_tables_ok _ ⟨true, 1, 0, k⟩ rfl rfl rfl rfl, test_tables_ok _ ⟨true, 1, 0, k⟩ rfl rfl rfl rfl⟩

/-- An own frame joins its segment's queue, takes the place of one for its key, and finds a place as the 24th
but not as the 25th (R15). -/
theorem test_own_queue :
    let full := fun n => dosing.updSegment 0 fun x => { x with own := List.replicate n ⟨1, 7, 0⟩ }
    dosing.segOfEntry (dosing.lineEntry 0) = some 0 ∧ QueuesOk dosing ∧
      QueuesOk (dosing.originate (some 0) 7) ∧ own (dosing.originate (some 0) 7) = [⟨1, 0, 7⟩] ∧
      own ((dosing.originate (some 0) 7).originate (some 0) 9) = [⟨1, 0, 9⟩] ∧
      (own ((full 23).originate (some 0) 7)).length = 24 ∧
      (own ((full 24).originate (some 0) 7)).length = 24 := by decide +kernel

/-- A stop and the plant stop input send the pump of D1 its 0, in place where a rate waited (R54, R61). -/
theorem test_stop_sends_0 :
    (dosing.gate.get 0).admitted ≠ 0 ∧
      own (after (.stationCommand 1 3 0) dosing) = [⟨1, 0, 0⟩] ∧
      own (after (.stationCommand 1 3 0) (dosing.originate (some 0) 7)) = [⟨1, 0, 0⟩] ∧
      own (after .plantStopAsserted dosing) = [⟨1, 0, 0⟩] := by decide +kernel

/-- The move of a stage is sent to the valves or the pump (R117, R125). -/
theorem test_moves_are_sent :
    QueuesOk pumping ∧ pumping.segOfEntry (pumping.valveEntry 0) = some 0 ∧
      pumping.segOfEntry pumping.pumpEntry = some 0 ∧ pumping.seq.pumpRun = true ∧
      own (pumping.valveEcho 0 4) = [] ∧
      own ((washing .isolate (.move .valves 2 9)).valveEcho 0 2) = [⟨1, 1, 3⟩] ∧
      own ((washing .wash (.move .valves 4 9)).valveEcho 0 4) = [⟨1, 2, 1⟩] ∧
      own ((washing .wash (.move .pump 0 9)).pumpEcho 0) = [⟨1, 1, 2⟩] ∧
      own (after (.dwellEnd 0) (washing .rinse (.dwell 0))) = [⟨1, 1, 1⟩] ∧
      own (after (.abortBackwash 1 [1]) pumping) = [⟨1, 2, 0⟩, ⟨1, 1, 5⟩] ∧
      own (after .plantStopAsserted pumping) = [⟨1, 2, 0⟩, ⟨1, 1, 1⟩] := by decide +kernel

theorem test_hyps_scour_dwell_with_a_tank_abort :
    (washing .scour (.dwell 0)).backwashOf 0 = some ⟨.scour, .dwell 0, none, true, false, 9⟩ ∧
      (washing .scour (.dwell 0)).tankAbort = some .readingLost := by decide +kernel

/-- FREE_CL of D1 at its limit of 200, and down through its hysteresis of 50 (R65). -/
theorem test_hyps_limit_from_above :
    let s := mapped dosing 0
    let x := withSlot (withLine s { dosing.gate.get 0 with
      state := .inhibited, admitted := 0, causes := { Causes.empty with limit := true } }) 0
      ⟨⟨.valid, some ⟨300, 0⟩⟩, none⟩
    let limit := fun (s : State) (v : Half) => ((after (.sample 0 1 0 v 0) s).gate.get 0).causes.limit
    Listed s 0 1 ∧ s.lookupSlot 1 0 = some 0 ∧ Governs s 0 0 ∧ (s.gate.get 0).state ≠ .disabled ∧
      s.modeNow ≠ .commission ∧ (s.tables.lines.get 0).kind = .hypo ∧
      limit s 199 = false ∧ limit s 200 = true ∧ limit x 150 = true ∧ limit x 149 = false := by
  decide +kernel

/-- PH of an ACID line from below. -/
theorem test_hyps_limit_from_below :
    let s := ofKind (mapped dosing 6) .acid 10
    let x := withSlot (withLine s { dosing.gate.get 0 with
      state := .inhibited, admitted := 0, causes := { Causes.empty with limit := true } }) 6
      ⟨⟨.valid, some ⟨100, 0⟩⟩, none⟩
    let limit := fun (s : State) (v : Half) => ((after (.sample 0 1 0 v 0) s).gate.get 0).causes.limit
    Listed s 0 1 ∧ s.lookupSlot 1 0 = some 6 ∧ Governs s 6 0 ∧ (s.tables.lines.get 0).kind = .acid ∧
      limit s 201 = false ∧ limit s 200 = true ∧ limit x 250 = true ∧ limit x 251 = false := by
  decide +kernel

/-- In COMMISSION no line holds LIMIT (R65). -/
theorem test_hyps_limit_in_commission :
    let s := mapped (plant .commission) 0
    Listed s 0 1 ∧ Governs s 0 0 ∧ (s.gate.get 0).state ≠ .disabled ∧ s.modeNow = .commission ∧
      (after (.sample 0 1 0 900 0) s).reading 0 ≠ s.reading 0 ∧
      ((after (.sample 0 1 0 900 0) s).gate.get 0).causes.limit = false := by decide +kernel

/-- The DP of F1 at its limits of 800 and 1200, and down through its hysteresis of 50 (R97). -/
theorem test_hyps_dp :
    let s := mapped dosing 12
    let x := withSlot (withArb s fun a => { a with requests := ⟨true, true, false, false⟩ }) 12
      ⟨⟨.valid, some ⟨1300, 0⟩⟩, none⟩
    let dp := fun (s : State) (v : Half) =>
      let r := ((after (.sample 0 1 0 v 0) s).arbiter.filters.get 0).requests
      (r.dp, r.dpUrgent)
    s.lookupSlot 1 0 = some 12 ∧ (12 : SlotIx) = dpSlot 0 ∧ (s.tables.filters.get 0).assigned = true ∧
      (s.arbiter.filters.get 0).dpIgnored = false ∧ (s.arbiter.filters.get 0).check = none ∧
      dp s 799 = (false, false) ∧ dp s 800 = (true, false) ∧ dp s 1200 = (true, true) ∧
      dp x 1150 = (true, true) ∧ dp x 1149 = (true, false) ∧ dp x 749 = (false, false) ∧
      (withArb s fun a => { a with dpIgnored := true }).lookupSlot 1 0 = some 12 ∧
      dp (withArb s fun a => { a with dpIgnored := true }) 1200 = (false, false) ∧
      dp (withArb s fun a => { a with check := some 9 }) 1200 = (false, false) := by decide +kernel

/-- F1 in WASH with both tanks in their ranges, the balance tank's sample mapped. -/
def filling : State := tanksOk (mapped pumping 20)

theorem test_hyps_tank_levels :
    let stop := filling.tables.params.supplyStop
    let at' := fun (v : Half) => (after (.sample 0 1 0 v 0) filling).backwashOf 0
    Listed filling 0 1 ∧ filling.lookupSlot 1 0 = some balanceSlot ∧ BackwashOk filling ∧
      filling.reading balanceSlot = some 600 ∧ filling.reading sumpSlot = some 300 ∧
      filling.backwashOf 0 = some ⟨.wash, .dwell 7, none, true, false, 9⟩ ∧
      0 < stop ∧ stop < 600 ∧ at' (BitVec.ofNat 16 stop) = filling.backwashOf 0 ∧
      at' (BitVec.ofNat 16 (stop - 1)) = some ⟨.return, .move .valves 1 60,
        some (.supplyLow, .wash), true, false, 9⟩ := by decide +kernel

theorem test_hyps_sump_level :
    let s := mapped filling 21
    let stop := s.tables.params.sumpStop
    let at' := fun (v : Half) => (after (.sample 0 1 0 v 0) s).backwashOf 0
    s.lookupSlot 1 0 = some sumpSlot ∧ stop < 60000 ∧ BackwashOk s ∧
      at' (BitVec.ofNat 16 stop) = s.backwashOf 0 ∧
      at' (BitVec.ofNat 16 (stop + 1)) = some ⟨.return, .move .valves 1 60,
        some (.sumpFull, .wash), true, false, 9⟩ ∧
      (after (.sample 0 1 0 300 1) s).backwashOf 0 = some ⟨.return, .move .valves 1 60,
        some (.readingLost, .wash), true, false, 9⟩ := by decide +kernel

theorem test_hyps_tank_in_another_stage :
    let s := tanksOk (mapped (washing .rinse (.dwell 7)) 20)
    BackwashOk s ∧ s.lookupSlot 1 0 = some balanceSlot ∧
      s.backwashOf 0 = some ⟨.rinse, .dwell 7, none, true, false, 9⟩ ∧
      (after (.sample 0 1 0 0 0) s).backwashOf 0 = s.backwashOf 0 := by decide +kernel

/-- A substitute that ends on a FAULTY and on a STALE slot (R44). -/
theorem test_hyps_substitute_ends_on_a_fault :
    let s := fun x => withSlot (supervised 5 false) 0 ⟨⟨x, some ⟨700, 61⟩⟩, some ⟨5, 0⟩⟩
    ((s (.faulty .cal)).slots.get 0).sub = some ⟨5, 0⟩ ∧ ((s .stale).slots.get 0).base.state = .stale ∧
      (after (.substituteExpiry 0) (s (.faulty .cal))).ports.notices
        = [⟨.substituteExpired, .slot, 0, .expired, 5⟩, ⟨.readingFault, .slot, 0, .cal, 700⟩] ∧
      (after (.substituteExpiry 0) (s .stale)).ports.notices
        = [⟨.substituteExpired, .slot, 0, .expired, 5⟩, ⟨.readingFault, .slot, 0, .stale, 61⟩] := by
  decide +kernel

/-- C1 falls to LOW under D1's dose, and under F1's backwash (R27, R64, R124). -/
theorem test_hyps_class_falls :
    let s := counted 299 .full none
    let t := after .windowEnd s
    t.flowClass 0 = .low ∧ s.flowClass 0 = .full ∧ (s.gate.get 0).state = .dosing ∧
      (s.gate.get 0).causes.backwash = s.backwashCause 0 ∧ (t.gate.get 0).causes.flow = true ∧
      (t.gate.get 0).state = .inhibited ∧ (t.gate.get 0).requested = 500 ∧ own t = [⟨1, 0, 0⟩] ∧
      ⟨.flowChange, .circuit, 1, .low, 299⟩ ∈ t.ports.notices := by decide +kernel

/-- F1 washes while FI1 has counted `n` pulses. -/
def washingUnder (stage : Stage) (n : Nat) : State :=
  { washing stage (.dwell 7) with flow := (counted n .full none).flow }

theorem test_hyps_class_falls_in_a_backwash :
    BackwashOk (washingUnder .scour 299) ∧
      (after .windowEnd (washingUnder .scour 299)).flowClass 0 = .low ∧
      (after .windowEnd (washingUnder .scour 299)).backwashOf 0 = some ⟨.return, .move .valves 1 60,
        some (.starved, .scour), true, false, 9⟩ ∧
      (after .windowEnd (washingUnder .return 299)).backwashOf 0
        = (washingUnder .return 299).backwashOf 0 := by decide +kernel

/-- C1 rises to REDUCED: D1, with its point to itself, waits its resume delay or doses at once (R61, R62). -/
theorem test_hyps_class_rises :
    let s := fun delay => withLine (apart (ofKind (counted 300 .low (some .reduced)) .hypo delay))
      ⟨.inhibited, .supervisor, 60, 0, 0, .confirmed, some 0, { Causes.empty with flow := true },
        0, none, .requested⟩
    let t := fun delay => after .windowEnd (s delay)
    Alone (s 0) 0 ∧ ((s 0).gate.get 0).causes.backwash = (s 0).backwashCause 0 ∧
      (t 0).flowClass 0 = .reduced ∧
      ((t 0).gate.get 0).state = .dosing ∧ ((t 0).gate.get 0).admitted = 60 ∧
      own (t 0) = [⟨1, 0, 60⟩] ∧ ((t 10).gate.get 0).state = .resuming ∧
      ((t 10).gate.get 0).resume = 10 ∧ ((t 10).gate.get 0).requested = 60 := by decide +kernel

/-- A circuit whose class stays leaves its lines (R27). -/
theorem test_hyps_class_stays :
    let s := counted 600 .full none
    (s.tables.lines.get 0).kind ≠ .coag ∧ (after .windowEnd s).flowClass 0 = s.flowClass 0 ∧
      (after .windowEnd s).gate = s.gate := by decide +kernel

/-- D1 a COAG line beside F1's backwash: SCOUR gives it BACKWASH, RETURN takes it (R66). -/
theorem test_hyps_stage_reported :
    let s := ofKind (washing .isolate (.move .valves 2 9)) .coag 10
    let x := withLine (ofKind (washing .rinse (.dwell 0)) .coag 10) { Line.atReset with
      state := .inhibited, causes := { Causes.empty with backwash := true } }
    BackwashOk s ∧ 0 < (s.tables.filters.get 0).scourTime ∧ (s.tables.lines.get 0).kind = .coag ∧
      (s.tables.lines.get 0).circuit = (s.tables.filters.get 0).circuit ∧
      (s.gate.get 0).state ≠ .disabled ∧ ((s.valveEcho 0 2).backwashOf 0).map Backwash.stage = some .scour ∧
      ((s.valveEcho 0 2).gate.get 0).causes.backwash = true ∧
      ((s.valveEcho 0 2).gate.get 0).state = .inhibited ∧ BackwashOk x ∧
      ((after (.dwellEnd 0) x).gate.get 0).causes.backwash = false ∧
      ((after (.dwellEnd 0) x).gate.get 0).state = .stopped := by decide +kernel

/-- A pump echo in WASH on a circuit with a COAG line. -/
theorem test_hyps_pump_echo_reported :
    BackwashOk (washing .wash (.move .pump 0 9)) ∧
      (washing .wash (.move .pump 0 9)).backwashOf 0
        = some ⟨.wash, .move .pump 0 9, none, true, false, 9⟩ := by decide +kernel

/-- S1 comes UP in the restore for the first and for a later time (R52, R132). -/
theorem test_hyps_restore_commands :
    let s := fun seen => ({ withSegment (plant .startup) .recovering with
      seq := { (plant .startup).seq with restore := ⟨true, 600, .fill seen, false⟩ } } : State)
    (s false).segState 0 = .recovering ∧ (s false).seq.restore.running = true ∧
      (s false).modeNow = .startup ∧ QueuesOk (s false) ∧ QueuesOk (s true) ∧
      (∀ i : LineIx, ((s false).gate.get i).requested = 0 ∧ ((s false).gate.get i).admitted = 0) ∧
      (s true).seq.restore.seenUp.get 0 = true ∧
      restoreCommands (s false) 0 = [⟨1, 1, 1⟩, ⟨1, 0, 0⟩, ⟨1, 2, 0⟩] ∧
      own (after (.recoveryTimerExpiry 0) (s false)) = restoreCommands (s false) 0 ∧
      own (after (.recoveryTimerExpiry 0) (s true)) = [] := by decide +kernel

/-- A segment that is UP again leaves its lines without UNREACHABLE (R67). -/
theorem test_hyps_reached_again :
    let s := withSegment (line .inhibited { Causes.empty with unreachable := true }) .recovering
    s.segOfEntry (s.lineEntry 0) = some 0 ∧ (s.gate.get 0).state ≠ .disabled ∧
      (s.gate.get 0).causes.backwash = s.backwashCause 0 ∧
      ((after (.recoveryTimerExpiry 0) s).gate.get 0).state = .stopped := by decide +kernel

/-- The restore whose last object has settled, and one whose pump has not (R133). -/
theorem test_hyps_restore_settles :
    let s := fun pump => ({ plant .startup with
      gate := (plant .startup).gate.mapIdx fun _ l => { l with confirmation := .confirmed }
      seq := { (plant .startup).seq with restore := ⟨true, 600, .fill true, pump⟩ } } : State)
    (s true).seq.restore.running = true ∧
      (∀ f : FilterIx, ((s true).seq.filters.get f).attempt = none) ∧
      (∀ i : LineIx, ((s true).gate.get i).confirmation = .confirmed) ∧
      (s true).seq.restore.pumpSettled = true ∧ (s true).checkRestore.modeNow = .commission ∧
      (s false).seq.restore.pumpSettled = false ∧ (s false).checkRestore = s false := by
  decide +kernel

/-- The hours limit at its value, one below it, and absent (R99). -/
theorem test_hyps_hours :
    let s := fun (limit hours : Nat) => (dosing.putRunHours 0 ⟨hours, 3599⟩).updTables fun t => { t with
      filters := t.filters.upd 0 fun c => { c with hoursLimit := limit } }
    let hours := fun x : State => ((after (.runHoursCount 0) x).arbiter.filters.get 0).requests.hours
    ((s 24 23).mode.retained.runHours.get 0).seconds + 1 = 3600 ∧
      ((s 24 23).tables.filters.get 0).assigned = true ∧
      ((s 24 23).arbiter.filters.get 0).check = none ∧
      hours (s 24 23) = true ∧ hours (s 24 22) = false ∧ hours (s 0 23) = false ∧
      (after (.runHoursCount 0) (s 24 65535)).arbiter = (s 24 65535).arbiter := by decide +kernel

/-- The end of a check with the pressure at the limit, and with DP ignored (R98). -/
theorem test_hyps_check_reads_the_pressure :
    let r := fun s => ((after (.checkExpiry 0) s).arbiter.filters.get 0).requests
    ((checking 0 false).arbiter.filters.get 0).requests.dp = false ∧
      ((checking 0 false).arbiter.filters.get 0).requests.dpUrgent = false ∧
      ((after (.checkExpiry 0) (checking 0 false)).arbiter.filters.get 0).dpIgnored = false ∧
      (r (checking 0 false)).dp = true ∧ (r (checking 0 false)).dpUrgent = false ∧
      ((after (.checkExpiry 0) (checking 2 true)).arbiter.filters.get 0).dpIgnored = true ∧
      (r (checking 2 true)).dp = false := by decide +kernel

/-- The Runner's release of a line that doses for a programme, and of one that doses for the supervisor. -/
theorem test_hyps_release_sends_0 :
    let s := withLine (running 0 9) { dosing.gate.get 0 with source := .programme }
    (s.gate.get 0).source = .programme ∧ (s.gate.get 0).admitted ≠ 0 ∧
      own (after (.stopProgramme 1 [1]) s) = [⟨1, 0, 0⟩] ∧
      ((running 0 9).gate.get 0).source = .supervisor ∧
      own (after (.stopProgramme 1 [1]) (running 0 9)) = [] := by decide +kernel

/-- A line that is enabled and a filter that is assigned (R51, R114). -/
theorem test_hyps_enabled_and_assigned :
    let d := withLine (dosing.updTables fun t => { t with
      lines := t.lines.upd 0 fun c => { c with enabled := false } }) Line.atReset
    let u := withFilter (dosing.updTables fun t => { t with
      filters := t.filters.upd 0 fun c => { c with assigned := false } }) ⟨.unused, none, false, none⟩ none
    (d.writeField (.line 0 0) 1).2 = .done ∧ (d.tables.lines.get 0).enabled = false ∧
      own (d.writeField (.line 0 0) 1).1 = [⟨1, 0, 0⟩] ∧
      (u.writeField (.filter 0 0) 1).2 = .done ∧ (u.tables.filters.get 0).assigned = false ∧
      (u.seq.filters.get 0).state = .unused ∧ QueuesOk u ∧
      own (u.writeField (.filter 0 0) 1).1 = [⟨1, 1, 1⟩] := by decide +kernel

/-- The pump of a line whose resume timer ends is sent its rate, and one that faults or is cleared its 0. -/
theorem test_lines_are_sent :
    own (after (.resumeTimerExpiry 0)
        (withLine dosing { Line.atReset with state := .resuming, requested := 60 })) = [⟨1, 0, 60⟩] ∧
      own (after (.confirmTimerExpiry 0)
        (withLine dosing { dosing.gate.get 0 with confirmation := .awaiting (some 0) })) = [⟨1, 0, 0⟩] ∧
      own (after (.clearFaultLine 1 [5, 1]) (line .faulted Causes.empty)) = [⟨1, 0, 0⟩] := by
  decide +kernel

end Sys2Proof.Tests
end

section
/-!
PROOFS. What each command may do to the working tables, the flow inputs, the readings and the time of day, and
that every command keeps the guarantees of the Dose Gate (02_circuits_and_flow, 04_the_dose_gate).
-/

namespace Sys2Proof.Machine

open Sys2Proof.Safety Sys2Proof.Claims

/-! ## The records that have their own commands -/

/-- From `s` to `t` the working tables, the flow inputs, what the samples gave and the time of day stand. -/
structure RecordsSame (s t : State) : Prop where
  tables : t.tables = s.tables
  inputs : t.flow.inputs = s.flow.inputs
  base : ∀ k, (t.slots.get k).base = (s.slots.get k).base
  day : t.clock.day = s.clock.day
  minute : t.clock.minute = s.clock.minute
  second : t.clock.second = s.clock.second
  valid : t.clock.valid = s.clock.valid

/-- From `s` to `t` those records stand, and the guarantees of the Dose Gate are kept. -/
structure RecordsFrame (s t : State) : Prop extends RecordsSame s t where
  dose : DoseOk s → DoseOk t

theorem RecordsSame.trans {s t u : State} (h : RecordsSame s t) (k : RecordsSame t u) :
    RecordsSame s u :=
  ⟨k.tables.trans h.tables, k.inputs.trans h.inputs, fun i => (k.base i).trans (h.base i),
    k.day.trans h.day, k.minute.trans h.minute, k.second.trans h.second, k.valid.trans h.valid⟩

/-- A fold of operations that leave the records leaves them. -/
theorem RecordsSame.foldl {α : Type} {f : State → α → State} (h : ∀ s a, RecordsSame s (f s a))
    (l : List α) (s : State) : RecordsSame s (l.foldl f s) := by
  induction l generalizing s with
  | nil => exact ⟨rfl, rfl, fun _ => rfl, rfl, rfl, rfl, rfl⟩
  | cons a l ih => exact (h s a).trans (ih _)

/-- What the Dose Gate and the Runner own is none of these. -/
theorem RecordsSame.of_gate {s t : State} (h : GateFrame s t) : RecordsSame s t :=
  ⟨h.tables, by rw [h.flow], fun k => by rw [h.slots], by rw [h.clock], by rw [h.clock],
    by rw [h.clock], by rw [h.clock]⟩

namespace RecordsFrame

theorem refl (s : State) : RecordsFrame s s := ⟨⟨rfl, rfl, fun _ => rfl, rfl, rfl, rfl, rfl⟩, id⟩

theorem trans {s t u : State} (h : RecordsFrame s t) (k : RecordsFrame t u) : RecordsFrame s u :=
  ⟨h.toRecordsSame.trans k.toRecordsSame, k.dose ∘ h.dose⟩

/-- What ends substitutes and works the lines and filters (R46) leaves the records. -/
theorem of_slots {s t : State} (h : SlotsFrame s t) : RecordsFrame s t where
  tables := h.tables
  inputs := by rw [h.flow]
  base k := by
    have e := congrArg (fun u => (u.slots.get k).base) h.same
    simpa [State.offSlots] using e
  day := by rw [h.clock]
  minute := by rw [h.clock]
  second := by rw [h.clock]
  valid := by rw [h.clock]
  dose := h.dose

theorem of_wash {s t : State} (h : WashFrame s t) : RecordsFrame s t := of_slots (.of_wash h)

theorem of_gate {s t : State} (h : GateFrame s t) (d : DoseOk s → DoseOk t) : RecordsFrame s t :=
  of_wash (.of_gate h d)

/-- A change of mode leaves the records (R135). -/
theorem of_mode {s t : State} {new : ModeState} (h : ModeFrame s t new) : RecordsFrame s t :=
  have k := of_slots h.frame
  ⟨⟨k.tables, k.inputs, k.base, k.day, k.minute, k.second, k.valid⟩,
    fun d => h.dose d.1 d.2.1 d.2.2.2⟩

/-- A change that leaves the lines, the permits, the readings and what they rest on alone. -/
theorem of_others {s t : State} (h1 : t.gate = s.gate := by rfl) (h2 : t.tables = s.tables := by rfl)
    (h3 : t.flow = s.flow := by rfl) (h4 : t.mode.state = s.mode.state := by rfl)
    (h5 : t.pins.permits = s.pins.permits := by rfl)
    (h6 : t.pins.plantStop = s.pins.plantStop := by rfl) (h7 : t.slots = s.slots := by rfl)
    (h8 : t.clock = s.clock := by rfl) : RecordsFrame s t where
  tables := h2
  inputs := by rw [h3]
  base k := by rw [h7]
  day := by rw [h8]
  minute := by rw [h8]
  second := by rw [h8]
  valid := by rw [h8]
  dose := WashFrame.dose_of h1 h2 h3 h4 h5 h6

/-- A fold of operations that leave the records and keep the guarantees does. -/
theorem foldl {α : Type} {f : State → α → State} (h : ∀ s a, RecordsFrame s (f s a)) (l : List α)
    (s : State) : RecordsFrame s (l.foldl f s) := by
  induction l generalizing s with
  | nil => exact refl s
  | cons a l ih => exact (h s a).trans (ih _)

end RecordsFrame

/-- The guarantees of the Dose Gate rest on the lines' states and rates, on which lines and circuits are
enabled, on where the lines lie and inject, on the flow classes, and on the permits' other conditions. -/
theorem dose_of_view {s t : State}
    (hline : ∀ i, (t.gate.get i).state = (s.gate.get i).state ∧
      (t.gate.get i).admitted = (s.gate.get i).admitted)
    (hcfg : ∀ i, (t.tables.lines.get i).enabled = (s.tables.lines.get i).enabled ∧
      (t.tables.lines.get i).circuit = (s.tables.lines.get i).circuit ∧
      (t.tables.lines.get i).injectionPoint = (s.tables.lines.get i).injectionPoint)
    (hclass : ∀ c, t.flowClass c = s.flowClass c)
    (hoff : ∀ c, (t.tables.circuits.get c).enabled = false →
      (s.tables.circuits.get c).enabled = false ∨ s.flowClass c = .none)
    (hpermits : t.pins.permits = s.pins.permits) (hstop : t.pins.plantStop = s.pins.plantStop)
    (hmode : t.modeNow = s.modeNow) (h : DoseOk s) : DoseOk t := by
  obtain ⟨⟨hlines, hcircuits⟩, hidle, hdue, hexclusion⟩ := h
  refine ⟨⟨fun i hi => ?_, fun c hc => ?_⟩, fun i hi => ?_, fun i hi => ?_, fun i j hij hp => ?_⟩
  · rw [(hcfg i).1] at hi
    rw [(hline i).1]; exact hlines i hi
  · rw [hclass c]; exact (hoff c hc).elim (hcircuits c) id
  · rw [(hline i).1] at hi
    rw [(hline i).2]; exact hidle i hi
  · rw [hpermits] at hi
    have due := hdue i hi
    simp only [State.permitDue] at due ⊢
    rwa [(hline i).1, (hline i).2, (hcfg i).2.1, hclass, hstop, hmode]
  · rw [(hcfg i).2.2, (hcfg j).2.2] at hp
    rw [(hline i).2, (hline j).2]; exact hexclusion i j hij hp

/-! ## The ports and the requests -/

theorem State.notify_records (s : State) (n : Notice) : RecordsFrame s (s.notify n) :=
  .of_wash (s.notify_wash n)

theorem State.forwardDown_records (s : State) (g : SegIx) (c : Cmd) :
    RecordsFrame s (s.forwardDown g c) := .of_others

theorem State.forwardUp_records (s : State) (f : Frame) : RecordsFrame s (s.forwardUp f) := by
  obtain ⟨-, hpins, htables, hflow, hslots, hgate, -, -, -, hmode, hclock, -⟩ := s.forwardUp_fields f
  exact .of_others hgate htables hflow (by rw [hmode]) (by rw [hpins]) (by rw [hpins]) hslots hclock

/-- An answered request leaves what its body left. -/
theorem Reply.finish_records {s : State} {x : Reply} (h : RecordsFrame s x.state) (r : Request)
    (tag : Byte) : RecordsFrame s (x.finish r tag) := by
  unfold Reply.finish
  split
  · exact h.trans .of_others
  · exact h

/-- Taking a request leaves the records if its body does (R161). -/
theorem State.manage_records {α : Type} {s : State} {r : Request} {tag : Byte} {modeOk : Bool}
    {args : Option α} {body : α → Reply}
    (hbody : ∀ a, args = some a → RecordsFrame s (body a).state) :
    RecordsFrame s (s.manage r tag modeOk args body) :=
  State.manage_keeps (P := RecordsFrame s) .of_others (fun _ _ => .of_others)
    fun a ha _ _ _ => Reply.finish_records (hbody a ha) r tag

/-- A property that an ignored frame, a notice and the accepted frame keep is kept (R3, R11). -/
theorem State.segFrame_keeps {P : State → Prop} {s : State} {g : SegIx} {kind : FrameKind}
    {source destination : Byte} {accept : State → State} (hs : P s) (hn : ∀ n, P (s.notify n))
    (ha : P (accept s)) : P (s.segFrame g kind source destination accept) := by
  unfold State.segFrame
  split
  · exact hs
  split
  · exact hn _
  split
  · split
    · exact ha
    · exact hn _
  · split
    · exact ha
    · exact hn _
  · exact hn _
  · exact hn _
  · exact hs
  · exact hs

/-! ## The mode -/

theorem State.changeMode_records (s : State) (new : ModeState) (c : Cause) :
    RecordsFrame s (s.changeMode new c) := .of_mode (s.changeMode_frame new c)

theorem State.enterLockout_records (s : State) (l : LockCause) (c : Cause) :
    RecordsFrame s (s.enterLockout l c) :=
  RecordsFrame.trans (t := s.setLockout l) .of_others (State.changeMode_records _ _ _)

theorem State.enterFallback_records (s : State) (c : Cause) : RecordsFrame s (s.enterFallback c) := by
  unfold State.enterFallback
  extract_lets t
  have ht : RecordsFrame s t := .of_others
  split
  · exact ht.trans (t.enterLockout_records _ _)
  · exact ht.trans (t.changeMode_records _ _)

theorem State.startUpDecision_records (s : State) : RecordsFrame s s.startUpDecision := by
  unfold State.startUpDecision
  extract_lets r
  split
  · exact s.changeMode_records _ _
  split
  · exact s.enterLockout_records _ _
  split
  · exact s.changeMode_records _ _
  split
  · exact s.changeMode_records _ _
  · exact s.changeMode_records _ _

theorem State.completeRestore_records (s : State) : RecordsFrame s s.completeRestore := by
  unfold State.completeRestore
  exact RecordsFrame.trans (t := { s with seq := { s.seq with
    restore := { s.seq.restore with running := false } } }) .of_others
    (State.startUpDecision_records _)

theorem State.checkRestore_records (s : State) : RecordsFrame s s.checkRestore := by
  unfold State.checkRestore
  split
  · exact s.completeRestore_records
  · exact .refl s

/-- An evaluation of the flags leaves the time of day (R159). -/
theorem State.evaluate_records (s : State) : RecordsFrame s s.evaluate :=
  RecordsFrame.trans (t := s.updClock fun c => { c with
      openFlags := .ofFn s.openDue
      washFlags := .ofFn s.washDue })
    ⟨⟨rfl, rfl, fun _ => rfl, rfl, rfl, rfl, rfl⟩, WashFrame.dose_of rfl rfl rfl rfl rfl rfl⟩
    (.of_wash s.evaluate_wash)

/-! ## Frames from the supervisor -/

/-- A supervisor command for a line keeps the guarantees (R56, R57). -/
theorem State.lineCommand_dose (s : State) (k : Fin 48) (g : SegIx) (i : LineIx) (c : Cmd)
    (h : DoseOk s) : DoseOk (s.lineCommand k g i c) := by
  unfold State.lineCommand
  split
  · exact (s.notify_quiet _).dose h
  rename_i e
  have hov : QuietFrame s (s.overrideProgramme i c.value) := by
    unfold State.overrideProgramme
    split
    · exact .refl s
    · exact (s.putProg_quiet i none).trans (State.notify_quiet _ _)
  extract_lets t _ u l w
  have ht : DoseOk t := hov.dose h
  split
  · exact (State.notify_quiet _ _).dose (t.putLine_dose i _ ht rfl rfl)
  have hact : DoseOk (t.act .supervisor i c.value .supervisor) :=
    t.act_dose _ i _ _ ht (by rw [hov.gate]; exact s.lineTest_enabled i _ _ e)
  have hu : DoseOk u := State.putLine_dose _ i _ hact rfl rfl
  have hw : DoseOk w := (u.forwardDown_records _ _).dose hu
  split
  · exact hw
  · exact (w.notify_quiet _).dose hw

theorem State.lineCommand_records (s : State) (k : Fin 48) (g : SegIx) (i : LineIx) (c : Cmd) :
    RecordsFrame s (s.lineCommand k g i c) := by
  refine ⟨?_, s.lineCommand_dose k g i c⟩
  rcases s.lineCommand_cases k g i c with h | ⟨t, v, u, ht, hu, e⟩
  · exact .of_gate h
  · rw [e]
    exact ((RecordsSame.of_gate ht).trans (t.forwardDown_records _ _).toRecordsSame).trans (.of_gate hu)

/-- The circulation of a circuit is no condition of a dose (R30, R55). -/
theorem State.updCircuit_circulation_records (s : State) (c : CircuitIx) (x : Circulation) :
    RecordsFrame s (s.updCircuit c fun y => { y with circulation := x }) := by
  refine ⟨⟨rfl, rfl, fun _ => rfl, rfl, rfl, rfl, rfl⟩, dose_of_view (fun _ => ⟨rfl, rfl⟩)
    (fun _ => ⟨rfl, rfl, rfl⟩) (fun j => ?_) (fun _ => .inl) rfl rfl rfl⟩
  simp only [State.flowClass, State.updCircuit_fields, Table.get_upd]
  split <;> rfl

theorem State.circulationCommand_records (s : State) (k : Fin 48) (g : SegIx) (c : CircuitIx)
    (m : Cmd) : RecordsFrame s (s.circulationCommand k g c m) := by
  have hgate : ∀ (t : State) b, RecordsFrame t (t.gateCirculation c b) := fun t b =>
    .of_gate (t.gateCirculation_gate c b) (t.gateCirculation_dose c b)
  unfold State.circulationCommand
  split
  · split
    · exact s.notify_records _
    · exact (((hgate s true).trans (State.updCircuit_circulation_records _ c .stopped)).trans
        (State.forwardDown_records _ _ _)).trans (.of_wash (State.arbitrate_wash _))
  split
  · exact (((s.forwardDown_records g m).trans (State.updCircuit_circulation_records _ c .run)).trans
      (hgate _ false)).trans (.of_wash (State.arbitrate_wash _))
  · exact s.notify_records _

theorem State.admitByEntry_records (s : State) (k : Fin 48) (g : SegIx) (m : Cmd) :
    RecordsFrame s (s.admitByEntry k g m) := by
  unfold State.admitByEntry
  extract_lets e
  have owned : RecordsFrame s (if s.modeNow = .commission then s.forwardDown g m
      else s.refuse .entry k.val .owned m.value) := by
    split
    · exact s.forwardDown_records g m
    · exact s.notify_records _
  cases e.object with
  | doseLine =>
    dsimp only
    split
    · exact s.lineCommand_records k g _ m
    · exact .refl s
  | filterValves => exact owned
  | backwashPump => exact owned
  | circPump =>
    dsimp only
    split
    · exact s.circulationCommand_records k g _ m
    · exact .refl s
  | pass => exact s.forwardDown_records g m
  | closed => exact s.notify_records _

theorem State.stationCommand_records (s : State) (m : Cmd) : RecordsFrame s (s.stationCommand m) := by
  unfold State.stationCommand
  extract_lets key
  split
  · exact s.notify_records _
  split
  · exact s.notify_records _
  split
  · exact s.notify_records _
  split
  · exact s.admitByEntry_records _ _ m
  split
  · exact s.forwardDown_records _ m
  · exact s.notify_records _

/-! ## Echoes -/

theorem State.lineEcho_dose (s : State) (i : LineIx) (v : Nat) (h : DoseOk s) :
    DoseOk (s.lineEcho i v) := by
  unfold State.lineEcho
  extract_lets l t
  have ht : DoseOk t := s.putLine_dose i _ h rfl rfl
  split
  · exact ht
  rename_i n
  split
  · split
    · exact s.putLine_dose i _ h rfl rfl
    · exact ht
  split
  · exact ht
  · refine t.faultLine_dose i _ v ht ?_
    simpa [t] using fun e => n (.inl e)

theorem State.lineEcho_records (s : State) (i : LineIx) (v : Nat) : RecordsFrame s (s.lineEcho i v) := by
  refine .of_gate ?_ (s.lineEcho_dose i v)
  unfold State.lineEcho
  extract_lets l t
  have ht : GateFrame s t := s.putLine_gate i _
  split
  · exact ht
  split
  · split
    · exact s.putLine_gate i _
    · exact ht
  split
  · exact ht
  · exact ht.trans (t.faultLine_gate i _ v)

theorem State.valveEcho_records (s : State) (f : FilterIx) (v : Nat) :
    RecordsFrame s (s.valveEcho f v) := by
  refine .of_wash ?_
  unfold State.valveEcho
  extract_lets q t
  have ht : WashFrame s t := s.updFilter_wash f _
  split
  · split
    · split
      · exact ht.trans (t.moveConfirmed_wash f _ _ v)
      · exact ht
    · exact ht
    · exact ht
  · split
    · exact (ht.trans (t.updFilter_wash f _)).trans (State.putFilterState_wash _ f _)
    · exact ht
  · exact ht

theorem State.pumpEcho_records (s : State) (v : Nat) : RecordsFrame s (s.pumpEcho v) := by
  have key : ∀ t : State, RecordsFrame t (t.forFilters fun t f =>
      match s.backwashOf f with
      | none => t
      | some b => match b.step with
        | .move .pump awaited _ => if v = awaited then t.moveConfirmed f b .pump v else t
        | .move .valves _ _ | .dwell _ => t) := by
    intro t
    refine .of_wash (WashFrame.foldl (fun t f => ?_) _ t)
    split
    · exact .refl t
    split
    · split
      · exact t.moveConfirmed_wash f _ _ v
      · exact .refl t
    · exact .refl t
    · exact .refl t
  unfold State.pumpEcho
  split
  · exact RecordsFrame.trans .of_others (key _)
  · exact RecordsFrame.trans .of_others (key _)

theorem State.consumeEcho_records (s : State) (station channel v : Nat) :
    RecordsFrame s (s.consumeEcho station channel v) := by
  unfold State.consumeEcho
  split
  · exact .refl s
  extract_lets e
  cases e.object with
  | doseLine =>
    dsimp only
    split
    · exact s.lineEcho_records _ v
    · exact .refl s
  | filterValves =>
    dsimp only
    split
    · exact s.valveEcho_records _ v
    · exact .refl s
  | backwashPump => exact s.pumpEcho_records v
  | circPump => exact .refl s
  | pass => exact .refl s
  | closed => exact .refl s

end Sys2Proof.Machine
end

section
/-!
PROOFS. The window end in its parts (R19-R27): what is judged, which classes change, and that the reports of the
changed classes restore the guarantees of the Dose Gate.
-/

namespace Sys2Proof.Machine

open Sys2Proof.Safety Sys2Proof.Claims

/-! ## The window end in its parts -/

/-- The Flow Unit's fields after a window (R19, R24-R26). -/
def State.flowAfterWindow (s : State) : Flow :=
  let inputs := s.flow.inputs.mapIdx fun _ x => x.endWindow
  let t : State := { s with flow := { s.flow with windowSeconds := 0, inputs := inputs } }
  { t.flow with circuits := t.flow.circuits.mapIdx fun c x => t.windowCircuit c x }

/-- They rest on the flow and the tables alone. -/
theorem State.flowAfterWindow_congr {s t : State} (hflow : t.flow = s.flow)
    (htables : t.tables = s.tables) : t.flowAfterWindow = s.flowAfterWindow := by
  simp only [State.flowAfterWindow, State.windowCircuit, State.flowSum, hflow, htables]

/-- The circuits whose class the window end changes (R27). -/
def State.changedClasses (s : State) : List CircuitIx :=
  (List.finRange 6).filter fun c => (s.flowAfterWindow.circuits.get c).flowClass != s.flowClass c

/-- The state at the window end with every circuit judged and every notice of the Flow Unit sent, before the
reports of the changed classes (R27; log entry 6). -/
def State.windowJudged (s : State) : State :=
  s.changedClasses.foldl (fun t c => t.flowChange c (t.flow.circuits.get c).flowSum)
    { s.overrangeNotices with flow := s.flowAfterWindow }

/-- A notice raised is the only change of a fold that raises notices. -/
theorem quiet_foldl {α : Type} {f : State → α → State} (h : ∀ s a, QuietFrame s (f s a)) (l : List α)
    (s : State) : QuietFrame s (l.foldl f s) := by
  induction l generalizing s with
  | nil => exact .refl s
  | cons a l ih => exact (h s a).trans (ih _)

theorem State.overrangeNotices_quiet (s : State) : QuietFrame s s.overrangeNotices :=
  quiet_foldl (fun t i => by
    dsimp only
    split
    · exact t.notify_quiet _
    · exact .refl t) _ s

/-- The state just after the judgement differs from `s`, beside notices, in the flow alone. -/
theorem State.windowJudged_quiet (s : State) :
    QuietFrame { s.overrangeNotices with flow := s.flowAfterWindow } s.windowJudged :=
  quiet_foldl (fun t _ => t.notify_quiet _) _ _

/-- The window end: the judgement, the reports of the changed classes, the selection of the Arbiter. -/
theorem State.windowEnd_eq (s : State) :
    s.windowEnd = (s.changedClasses.foldl State.reportClass s.windowJudged).arbitrate := by
  have q := s.overrangeNotices_quiet.frame
  have hjudged : s.windowEnd = ((((List.finRange 6).filter fun c =>
      ({ s.overrangeNotices with flow := s.overrangeNotices.flowAfterWindow } : State).flowClass c
        != s.flowClass c).foldl State.reportClass
      (((List.finRange 6).filter fun c =>
        ({ s.overrangeNotices with flow := s.overrangeNotices.flowAfterWindow } : State).flowClass c
          != s.flowClass c).foldl (fun t c => t.flowChange c (t.flow.circuits.get c).flowSum)
        { s.overrangeNotices with flow := s.overrangeNotices.flowAfterWindow }))).arbitrate := rfl
  rw [hjudged, State.flowAfterWindow_congr q.flow q.tables]
  rfl

@[simp] theorem State.windowJudged_flow (s : State) : s.windowJudged.flow = s.flowAfterWindow :=
  s.windowJudged_quiet.frame.flow

/-- The judgement leaves the lines, the permits and all else that a frame of the Dose Gate keeps. -/
theorem State.windowJudged_keeps (s : State) :
    QuietFrame { s with flow := s.flowAfterWindow } s.windowJudged := by
  have q := s.overrangeNotices_quiet
  have hstart : QuietFrame { s with flow := s.flowAfterWindow }
      { s.overrangeNotices with flow := s.flowAfterWindow } :=
    ⟨⟨congrArg (fun u : State => { u with flow := s.flowAfterWindow }) q.frame.same, q.frame.queues⟩,
      q.gate, q.permits⟩
  exact hstart.trans s.windowJudged_quiet

/-- A class that the window end does not name has not changed. -/
theorem State.flowClass_of_not_changed (s : State) (c : CircuitIx) (h : c ∉ s.changedClasses) :
    s.windowJudged.flowClass c = s.flowClass c := by
  simp only [State.changedClasses, List.mem_filter, List.mem_finRange, true_and, bne_iff_ne, ne_eq,
    not_not] at h
  simp only [State.flowClass, s.windowJudged_flow] at h ⊢
  exact h

theorem State.mem_changedClasses (s : State) (c : CircuitIx) :
    c ∈ s.changedClasses ↔ s.windowJudged.flowClass c ≠ s.flowClass c := by
  simp only [State.changedClasses, List.mem_filter, List.mem_finRange, true_and, bne_iff_ne,
    State.flowClass, s.windowJudged_flow]

/-- A disabled circuit is left out (R23). -/
theorem State.flowAfterWindow_disabled (s : State) (c : CircuitIx)
    (h : (s.tables.circuits.get c).enabled = false) :
    s.flowAfterWindow.circuits.get c = s.flow.circuits.get c := by
  simp [State.flowAfterWindow, State.windowCircuit, h]

/-- What the Arbiter, the Sequencer, the Dose Gate and the Runner own is none of the records. -/
theorem RecordsSame.of_offWash {s t : State} (h : t.offWash = s.offWash) : RecordsSame s t := by
  have hflow : t.flow = s.flow := congrArg (·.flow) h
  have hslots : t.slots = s.slots := congrArg (·.slots) h
  have hclock : t.clock = s.clock := congrArg (·.clock) h
  exact ⟨congrArg (·.tables) h, by rw [hflow], fun k => by rw [hslots], by rw [hclock],
    by rw [hclock], by rw [hclock], by rw [hclock]⟩

theorem State.reportClass_same (s : State) (c : CircuitIx) : RecordsSame s (s.reportClass c) :=
  .of_offWash (s.reportClass_frame c).1

/-- The window end changes no other record than the flow's. -/
theorem State.windowEnd_same (s : State) :
    RecordsSame { s with flow := s.flowAfterWindow } s.windowEnd := by
  have hjudged := RecordsSame.of_gate s.windowJudged_keeps.frame
  rw [s.windowEnd_eq]
  generalize s.windowJudged = r at hjudged
  exact (hjudged.trans (RecordsSame.foldl State.reportClass_same _ r)).trans
    (RecordsFrame.of_wash (State.arbitrate_wash _)).toRecordsSame

/-- The window end keeps the guarantees of the Dose Gate: the first report of a changed class sets every permit
afresh (R55, R64). -/
theorem State.windowEnd_dose (s : State) (h : DoseOk s) : DoseOk s.windowEnd := by
  have q := s.windowJudged_keeps
  rw [s.windowEnd_eq]
  refine (State.arbitrate_wash _).dose ?_
  have hdisabled : DisabledOk s.windowJudged := by
    refine ⟨fun i hi => ?_, fun c hc => ?_⟩
    · rw [q.frame.tables] at hi
      rw [q.gate]; exact h.1.1 i hi
    · rw [q.frame.tables] at hc
      rw [State.flowClass, s.windowJudged_flow, s.flowAfterWindow_disabled c hc]
      exact h.1.2 c hc
  have hidle : IdleZero s.windowJudged := fun i hi => by
    rw [q.gate] at hi ⊢; exact h.2.1 i hi
  have hexclusion : ExclusionOk s.windowJudged := fun i j hij hp => by
    rw [q.frame.tables] at hp
    rw [q.gate]; exact h.2.2.2 i j hij hp
  have report : ∀ t c, DisabledOk t → IdleZero t → ExclusionOk t → DoseOk (t.reportClass c) :=
    fun t c => (t.reportClass_frame c).2.2.2
  have hsame := s.flowClass_of_not_changed
  generalize s.windowJudged = r at q hdisabled hidle hexclusion hsame
  cases hc : s.changedClasses with
  | nil =>
    rw [List.foldl_nil]
    refine dose_of_view (s := s) (fun i => ?_) (fun i => ?_) (fun c => ?_) (fun c hc => .inl ?_) q.permits
      q.frame.plantStop q.frame.modeNow h
    · rw [q.gate]; exact ⟨rfl, rfl⟩
    · rw [q.frame.tables]; exact ⟨rfl, rfl, rfl⟩
    · exact hsame c (by rw [hc]; exact List.not_mem_nil)
    · rwa [q.frame.tables] at hc
  | cons c l =>
    rw [List.foldl_cons]
    exact dose_foldl (fun t c d => report t c d.1 d.2.1 d.2.2.2) l _
      (report r c hdisabled hidle hexclusion)

end Sys2Proof.Machine
end

section
/-!
PROOFS. One second of the timebase, and a write of each table (R162), keep the guarantees of the Dose Gate.
-/

namespace Sys2Proof.Machine

open Sys2Proof.Safety Sys2Proof.Claims

/-! ## One second -/

/-- A second moves no field that a guarantee of the Dose Gate rests on (R54, R62, R73). -/
theorem State.tick_dose (s : State) (h : DoseOk s) : DoseOk s.tick := by
  refine dose_of_view (s := s) (fun i => ?_) (fun _ => ⟨rfl, rfl, rfl⟩) (fun c => ?_) (fun _ => .inl)
    rfl rfl ?_ h
  · have e : s.tick.gate.get i = (s.gate.get i).tick := by simp [State.tick, State.count]
    rw [e]; exact ⟨rfl, rfl⟩
  · have e : s.tick.flow.circuits.get c =
        (s.flow.circuits.get c).tick (s.tables.circuits.get c).enabled := by
      simp [State.tick, State.count]
    rw [State.flowClass, e, Circuit.tick]
    split
    · rfl
    · rfl
  · change s.mode.state.tick.mode = s.mode.state.mode
    cases s.mode.state <;> rfl

/-! ## Writes of a field (R162) -/

/-- From `s` to `u` a field of the tables has been written, with what the blocks make of it: no record else has
changed, and the guarantees of the Dose Gate are kept. -/
structure FieldFrame (s u : State) : Prop where
  same : ∃ x, RecordsSame { s with tables := x } u
  dose : DoseOk s → DoseOk u

theorem FieldFrame.refl (s : State) : FieldFrame s s :=
  ⟨⟨s.tables, (RecordsFrame.refl s).toRecordsSame⟩, id⟩

theorem FieldFrame.trans {s t u : State} (h : FieldFrame s t) (k : RecordsFrame t u) :
    FieldFrame s u := by
  obtain ⟨x, hx⟩ := h.same
  exact ⟨⟨x, hx.trans k.toRecordsSame⟩, k.dose ∘ h.dose⟩

/-- A write that leaves the circuits and the lines alone. -/
theorem State.updTables_field (s : State) (h : Tables → Tables)
    (hlines : (h s.tables).lines = s.tables.lines := by rfl)
    (hcircuits : (h s.tables).circuits = s.tables.circuits := by rfl) :
    FieldFrame s (s.updTables h) := by
  refine ⟨⟨h s.tables, ⟨rfl, rfl, fun _ => rfl, rfl, rfl, rfl, rfl⟩⟩, dose_of_view (fun _ => ⟨rfl, rfl⟩)
    (fun i => ?_) (fun _ => rfl) (fun c hc => .inl ?_) rfl rfl rfl⟩
  · rw [(s.updTables_fields h).2.2.2.1, hlines]; exact ⟨rfl, rfl, rfl⟩
  · rwa [(s.updTables_fields h).2.2.2.1, hcircuits] at hc

/-- What a write that passed the checks of R162 has passed. -/
theorem judgeWrite_ok {α : Type} {new : Option α} {relation idle : α → Bool} {validate : α → Result}
    {r : α} (h : judgeWrite new relation idle validate = .ok r) :
    new = some r ∧ relation r = true ∧ idle r = true ∧ validate r = .done := by
  unfold judgeWrite at h
  split at h
  · cases h
  split at h
  · cases h
  split at h
  · cases h
  split at h
  · rename_i hrel hidle _ hval
    cases h
    exact ⟨rfl, by simpa using hrel, by simpa using hidle, hval⟩
  · cases h

/-- A refused write, and one of the value held, change nothing (R162). -/
theorem finishWrite_field {α : Type} [DecidableEq α] {s : State} {old : α} {j : Except Result α}
    {commit : α → State} (h : ∀ r, j = .ok r → FieldFrame s (commit r)) :
    FieldFrame s (finishWrite s old j commit).1 := by
  unfold finishWrite
  split
  · exact .refl s
  · dsimp only
    split
    · exact .refl s
    · exact h _ rfl

/-- Lines judged afresh after a write (R61). -/
theorem State.gateAfresh_records (s : State) (i : LineIx) : RecordsFrame s (s.gateAfresh i) :=
  .of_gate (s.gateAfresh_gate i) (s.applyCauses_dose i _)

theorem State.arbitrate_records (s : State) : RecordsFrame s s.arbitrate := .of_wash s.arbitrate_wash

theorem State.stationAfresh_records (s : State) (station : Nat) :
    RecordsFrame s (s.stationAfresh station) := by
  unfold State.stationAfresh State.forLines
  refine RecordsFrame.foldl (fun t i => ?_) _ s
  split
  · split
    · exact t.gateAfresh_records i
    · exact .refl t
  · exact .refl t

theorem State.setDirectory_field (s : State) (k : Fin 120) (v : Nat) :
    FieldFrame s (s.setDirectory k v).1 := by
  refine finishWrite_field fun r _ => ?_
  have hw := s.updTables_field fun t => { t with directory := t.directory.set k r }
  exact (hw.trans (State.stationAfresh_records _ (ixCode k))).trans (State.arbitrate_records _)

theorem State.setAdmission_field (s : State) (k : Fin 48) (n : Fin 5) (v : Nat) :
    FieldFrame s (s.setAdmission k n v).1 := by
  refine finishWrite_field fun r _ => ?_
  have hw := s.updTables_field fun t => { t with admission := t.admission.set k r }
  dsimp only
  split
  · exact (hw.trans (RecordsFrame.foldl (fun t i => by
      split
      · exact t.gateAfresh_records i
      · exact .refl t) (List.finRange 12) _)).trans (State.arbitrate_records _)
  · exact hw

theorem State.filterWritten_field (s : State) (k : FilterIx) (old r : FilterCfg) :
    FieldFrame s (s.filterWritten k old r) := by
  unfold State.filterWritten
  extract_lets t
  have ht : FieldFrame s t := s.updTables_field _
  have hwash : ∀ u, WashFrame t u → FieldFrame s u.arbitrate := fun u hu =>
    (ht.trans (.of_wash hu)).trans u.arbitrate_records
  split
  · exact hwash _ (((t.startAttempt_wash k).trans (State.rejudgeDp_wash _ k)).trans
      (State.rejudgeHours_wash _ k))
  split
  · exact hwash _ ((t.updFilter_wash k _).trans (State.updArb_wash _ k _))
  split
  · exact ht
  split
  · exact hwash _ (t.rejudgeDp_wash k)
  split
  · exact hwash _ (t.rejudgeHours_wash k)
  · exact hwash _ (.refl t)

theorem State.setTimetable_field (s : State) (k : Fin 16) (n : Fin 6) (v : Nat) :
    FieldFrame s (s.setTimetable k n v).1 := by
  refine finishWrite_field fun r _ => ?_
  have hw := s.updTables_field fun t => { t with timetable := t.timetable.set k r }
  dsimp only
  split
  · exact hw.trans (State.evaluate_records _)
  · exact hw

theorem State.setParam_field (s : State) (n : Fin 8) (v : Nat) : FieldFrame s (s.setParam n v).1 := by
  refine finishWrite_field fun r _ => ?_
  have hw := s.updTables_field fun t => { t with params := r }
  have hjudged := (hw.trans (.of_wash (WashFrame.foldl State.judgeTanks_wash (List.finRange 8) _))).trans
    (State.arbitrate_records _)
  have hplain := hw.trans (State.arbitrate_records _)
  dsimp only
  split
  · exact hjudged
  · exact hjudged
  · exact hplain
  · exact hplain
  all_goals exact hw

/-! ### A circuit -/

theorem State.updCircuit_id (s : State) (c : CircuitIx) : s.updCircuit c id = s := by
  simp only [State.updCircuit, Table.upd, id_eq, Table.set_get_self]

/-- A circuit's configured fields are written and the live ones set to `h` of what they were: with the class kept,
and none where the circuit is now disabled, the guarantees of the Dose Gate are kept. -/
theorem State.updCircuit_dose (s : State) (k : CircuitIx) (r : CircuitCfg) (h : Circuit → Circuit)
    (hclass : (h (s.flow.circuits.get k)).flowClass = s.flowClass k)
    (hoff : r.enabled = false → s.flowClass k = .none) (d : DoseOk s) :
    DoseOk ((s.updTables fun t => { t with circuits := t.circuits.set k r }).updCircuit k h) := by
  refine dose_of_view (s := s) (fun _ => ⟨rfl, rfl⟩) (fun _ => ⟨rfl, rfl, rfl⟩) (fun c => ?_)
    (fun c hc => ?_) rfl rfl rfl d
  · simp only [State.flowClass, State.updCircuit_fields, State.updTables_fields, Table.get_upd] at *
    split
    · rename_i e; rw [e]; exact hclass
    · rfl
  · simp only [State.updCircuit_fields, State.updTables_fields, Table.get_set] at hc
    split at hc
    · rename_i e; rw [e]; exact .inr (hoff hc)
    · exact .inl hc

/-- A circuit that becomes disabled is reported as holding no flow, and every permit is set afresh (R23, R27). -/
theorem State.disableCircuit_dose (s : State) (k : CircuitIx) (r : CircuitCfg) (v : Nat)
    (d : DoseOk s) :
    DoseOk ((((s.updTables fun t => { t with circuits := t.circuits.set k r }).updCircuit k
      Circuit.cleared).flowChange k v).reportClass k) := by
  have q := State.notify_quiet ((s.updTables fun t => { t with
    circuits := t.circuits.set k r }).updCircuit k Circuit.cleared)
  refine (State.reportClass_frame _ k).2.2.2 ⟨fun i hi => ?_, fun c hc => ?_⟩ (fun i hi => ?_)
    fun i j hij hp => ?_ <;> unfold State.flowChange at *
  · rw [(q _).frame.tables] at hi
    rw [(q _).gate]; exact d.1.1 i hi
  · rw [(q _).frame.tables] at hc
    rw [(q _).frame.flowClass]
    simp only [State.flowClass, State.updCircuit_fields, State.updTables_fields, Table.get_upd,
      Table.get_set] at hc ⊢
    split
    · rfl
    · rename_i e
      rw [if_neg e] at hc
      exact d.1.2 c hc
  · rw [(q _).gate] at hi ⊢; exact d.2.1 i hi
  · rw [(q _).frame.tables] at hp
    rw [(q _).gate]; exact d.2.2.2 i j hij hp

theorem State.circuitWritten_field (s : State) (k : CircuitIx) (r : CircuitCfg) :
    FieldFrame s (s.circuitWritten k (s.tables.circuits.get k) r) := by
  have hw : ∀ h : Circuit → Circuit, RecordsSame
      { s with tables := { s.tables with circuits := s.tables.circuits.set k r } }
      ((s.updTables fun t => { t with circuits := t.circuits.set k r }).updCircuit k h) :=
    fun h => ⟨rfl, rfl, fun _ => rfl, rfl, rfl, rfl, rfl⟩
  unfold State.circuitWritten
  refine FieldFrame.trans ?_ (State.arbitrate_records _)
  dsimp only
  split
  · rename_i e
    exact ⟨⟨_, hw _⟩, fun d => s.updCircuit_dose k r _ (d.1.2 k e.1).symm (fun x => by simp [e.2] at x) d⟩
  split
  · split
    · rename_i e
      exact ⟨⟨_, hw _⟩, s.updCircuit_dose k r _ e.symm fun _ => e⟩
    · exact ⟨⟨_, ((hw _).trans (RecordsSame.of_gate (State.notify_gate _ _))).trans
        (State.reportClass_same _ k)⟩, s.disableCircuit_dose k r 0⟩
  split
  · rename_i e
    exact ⟨⟨_, hw _⟩, s.updCircuit_dose k r _ rfl fun x => by simp [e] at x⟩
  · rename_i e1 e2 e3
    rw [← State.updCircuit_id (s.updTables _) k]
    refine ⟨⟨_, hw _⟩, fun d => s.updCircuit_dose k r id rfl (fun _ => d.1.2 k ?_) d⟩
    simpa [e3] using e2

/-! ### A line -/

/-- From `s` line `k` has been written as `r` with its live record in a state other than DOSING, no rate and its
permit off; nothing else of the Dose Gate has changed. -/
structure LineRewritten (s t : State) (k : LineIx) (r : LineCfg) : Prop where
  tables : t.tables = { s.tables with lines := s.tables.lines.set k r }
  flow : t.flow = s.flow
  plantStop : t.pins.plantStop = s.pins.plantStop
  mode : t.modeNow = s.modeNow
  others : ∀ j, j ≠ k → t.gate.get j = s.gate.get j ∧ t.pins.permits.get j = s.pins.permits.get j
  permit : t.pins.permits.get k = false
  idle : (t.gate.get k).admitted = 0
  disabled : r.enabled = false → (t.gate.get k).state = .disabled

/-- Such a write keeps the guarantees: the line admits nothing, wherever it now injects (R60). -/
theorem LineRewritten.dose {s t : State} {k : LineIx} {r : LineCfg} (h : LineRewritten s t k r)
    (d : DoseOk s) : DoseOk t := by
  obtain ⟨⟨hlines, hcircuits⟩, hidle, hdue, hexclusion⟩ := d
  have hcfg : ∀ j, t.tables.lines.get j = if j = k then r else s.tables.lines.get j := fun j => by
    rw [h.tables]; exact Table.get_set _ _ _ _
  have hclass : ∀ c, t.flowClass c = s.flowClass c := fun c => by simp only [State.flowClass, h.flow]
  refine ⟨⟨fun j hj => ?_, fun c hc => ?_⟩, fun j hj => ?_, fun j hj => ?_, fun i j hij hp => ?_⟩
  · rw [hcfg] at hj
    by_cases e : j = k
    · subst e
      exact h.disabled (by simpa using hj)
    · rw [(h.others j e).1]
      exact hlines j (by simpa [e] using hj)
  · rw [h.tables] at hc
    rw [hclass]; exact hcircuits c hc
  · by_cases e : j = k
    · rw [e]; exact h.idle
    · rw [(h.others j e).1] at hj ⊢; exact hidle j hj
  · by_cases e : j = k
    · rw [e, h.permit] at hj; cases hj
    · rw [(h.others j e).2] at hj
      have due := hdue j hj
      simp only [State.permitDue] at due ⊢
      rwa [(h.others j e).1, hcfg, if_neg e, hclass, h.plantStop, h.mode]
  · by_cases ei : i = k
    · exact .inl (by rw [ei]; exact h.idle)
    by_cases ej : j = k
    · exact .inr (by rw [ej]; exact h.idle)
    rw [hcfg, hcfg, if_neg ei, if_neg ej] at hp
    rw [(h.others i ei).1, (h.others j ej).1]
    exact hexclusion i j hij hp

/-- A line that is not DOSING admits nothing, with its permit off (R50, R55). -/
theorem permit_of_not_dosing {s : State} {i : LineIx} (d : DoseOk s)
    (n : (s.gate.get i).state ≠ .dosing) : s.pins.permits.get i = false := by
  by_contra c
  have due := d.2.2.1 i (by simpa using c)
  simp [State.permitDue, n] at due

/-- An idle line is not DOSING (R164). -/
theorem State.not_dosing_of_lineIdle {s : State} {i : LineIx} (h : s.lineIdle i = true) :
    (s.gate.get i).state ≠ .dosing := by
  intro e
  simp [State.lineIdle, e] at h

/-- What a write that the checks allow does of a line (R51, R61, R164). -/
theorem State.lineWritten_field (s : State) (k : LineIx) (r : LineCfg)
    (idle : (s.tables.lines.get k).enabled = true → s.lineIdle k = true) :
    FieldFrame s (s.lineWritten k (s.tables.lines.get k) r) := by
  have still : DoseOk s → (s.gate.get k).state ≠ .dosing := fun d => by
    cases e : (s.tables.lines.get k).enabled with
    | false => rw [d.1.1 k e]; decide
    | true => exact State.not_dosing_of_lineIdle (idle e)
  unfold State.lineWritten
  extract_lets t
  have hsame : RecordsSame { s with tables := { s.tables with
      lines := s.tables.lines.set k r } } t := ⟨rfl, rfl, fun _ => rfl, rfl, rfl, rfl, rfl⟩
  have hgate : ∀ u, GateFrame t u → ∃ x, RecordsSame { s with tables := x } u := fun u hu =>
    ⟨_, hsame.trans (.of_gate hu)⟩
  have hkept : ∀ d : DoseOk s, (r.enabled = false → (s.gate.get k).state = .disabled) → DoseOk t :=
    fun d e => LineRewritten.dose (r := r) ⟨rfl, rfl, rfl, rfl, fun _ _ => ⟨rfl, rfl⟩,
      permit_of_not_dosing (s := s) d (still d), d.2.1 k (still d), e⟩ d
  have hput : ∀ (u : State) (l : Line), GateFrame t u → u.gate = s.gate →
      u.pins.permits = s.pins.permits → l.state ≠ .dosing → l.admitted = 0 →
      (r.enabled = false → l.state = .disabled) → DoseOk s → DoseOk (u.putLine k l) := by
    intro u l hu hug hup hl ha he d
    have f := hu.trans (u.putLine_gate k l)
    have p := u.putLine_line k l
    refine LineRewritten.dose (r := r) ⟨f.tables, f.flow, f.plantStop, f.modeNow, fun j e => ?_, ?_,
      by rw [State.putLine_get]; exact ha, fun e => by rw [State.putLine_get]; exact he e⟩ d
    · rw [p.others j e, p.permits j e, hug, hup]; exact ⟨rfl, rfl⟩
    · by_contra c
      have due := p.permit (by simpa using c)
      simp [State.permitDue, hl] at due
  split
  · rename_i e
    unfold State.enableLine
    extract_lets _ u v
    have hv : GateFrame t v := (t.putLine_gate k _).trans (u.originate_gate _ _)
    refine ⟨hgate _ (hv.trans (v.applyCauses_gate k _)), fun d => v.applyCauses_dose k _ ?_⟩
    exact (u.originate_quiet _ _).dose (hput t _ (.refl t) rfl rfl (by simp) rfl (by simp [e.2]) d)
  split
  · unfold State.disableLine
    extract_lets l
    have hp : QuietFrame t (t.putProg k none) := t.putProg_quiet k none
    exact ⟨hgate _ (hp.frame.trans (State.putLine_gate _ k _)), fun d =>
      hput _ _ hp.frame hp.gate hp.permits (by simp) (d.2.1 k (still d)) (fun _ => rfl) d⟩
  rename_i e1 e2
  split
  · rename_i e
    refine ⟨hgate _ (.refl t), fun d => hkept d fun _ => d.1.1 k ?_⟩
    simpa [e] using e2
  rename_i e
  have ht : DoseOk s → DoseOk t := fun d => hkept d fun x => absurd x e
  split
  · exact ⟨hgate _ (t.gateAfresh_gate k), fun d => t.applyCauses_dose k _ (ht d)⟩
  split
  · exact ⟨hgate _ (t.applyCauses_gate k _), fun d => t.applyCauses_dose k _ (ht d)⟩
  · exact ⟨hgate _ (.refl t), ht⟩

/-- SET_FIELD of a named field (R162). -/
theorem State.writeField_field (s : State) (r : FieldRef) (v : Nat) :
    FieldFrame s (s.writeField r v).1 := by
  cases r with
  | directory k => exact s.setDirectory_field k v
  | admission k n => exact s.setAdmission_field k n v
  | mapEntry k n => exact finishWrite_field fun _ _ => s.updTables_field _
  | slotSetting k n => exact finishWrite_field fun _ _ => s.updTables_field _
  | flowInput k => exact finishWrite_field fun _ _ => s.updTables_field _
  | circuit k n => exact finishWrite_field fun r _ => s.circuitWritten_field k r
  | line k n =>
    refine finishWrite_field fun r hr => s.lineWritten_field k r fun e => ?_
    obtain ⟨-, -, hidle, -⟩ := judgeWrite_ok hr
    simp only [e, Bool.not_true, Bool.false_or, Bool.and_eq_true] at hidle
    exact hidle.1
  | filter k n => exact finishWrite_field fun r _ => s.filterWritten_field k _ r
  | step k n => exact finishWrite_field fun _ _ => s.updTables_field _
  | timetable k n => exact s.setTimetable_field k n v
  | param n => exact s.setParam_field n v

end Sys2Proof.Machine
end

section
/-!
PROOFS. What the resets and the operations behind single commands do to the records.
-/

namespace Sys2Proof.Machine

open Sys2Proof.Safety Sys2Proof.Claims

/-! ## Resets -/

/-- A reset leaves every line at rate 0 with its permit off, and every circuit with no flow (R26, R47, R52). -/
theorem State.resetPart_dose (s : State) (cause : StartCause) : DoseOk (s.resetPart cause) := by
  unfold State.resetPart
  extract_lets t u
  refine u.checkRestore_records.dose ?_
  have hgate : ∀ i, u.gate.get i = t.lineAtReset i := fun i => Table.get_ofFn _ i
  have hline : ∀ i, (u.gate.get i).admitted = 0 ∧
      ((u.tables.lines.get i).enabled = false → (u.gate.get i).state = .disabled) := by
    intro i
    have htables : u.tables = t.tables := rfl
    rw [hgate, htables]
    cases e : (t.tables.lines.get i).enabled <;>
      simp [State.lineAtReset, LineCfg.atReset, Line.atReset, e]
  have hclass : ∀ c, u.flowClass c = .none := fun c => by
    have hflow : u.flow.circuits = .fill Circuit.atReset := rfl
    rw [State.flowClass, hflow, Table.get_fill]; rfl
  have hpermits : ∀ i, u.pins.permits.get i = false := fun i => by
    have hpins : u.pins.permits = .fill false := rfl
    rw [hpins, Table.get_fill]
  exact ⟨⟨fun i => (hline i).2, fun c _ => hclass c⟩, fun i _ => (hline i).1,
    fun i hi => absurd hi (by rw [hpermits]; decide), fun i _ _ _ => .inl (hline i).1⟩

/-- A reset that is not a power-on keeps the time of day (R155). -/
theorem State.resetPart_time (s : State) (cause : StartCause) (h : cause ≠ .powerOn) :
    (s.resetPart cause).clock.day = s.clock.day ∧ (s.resetPart cause).clock.minute = s.clock.minute ∧
      (s.resetPart cause).clock.second = s.clock.second ∧
      (s.resetPart cause).clock.valid = s.clock.valid := by
  unfold State.resetPart
  extract_lets t u
  have hclock : u.clock.day = s.clock.day ∧ u.clock.minute = s.clock.minute ∧
      u.clock.second = s.clock.second ∧ u.clock.valid = s.clock.valid := by
    cases cause with
    | powerOn => exact absurd rfl h
    | resetPin => exact ⟨rfl, rfl, rfl, rfl⟩
    | restartRequest => exact ⟨rfl, rfl, rfl, rfl⟩
    | commit => exact ⟨rfl, rfl, rfl, rfl⟩
  have r := u.checkRestore_records
  exact ⟨r.day.trans hclock.1, r.minute.trans hclock.2.1, r.second.trans hclock.2.2.1,
    r.valid.trans hclock.2.2.2⟩

/-! ## Readings -/

/-- A slot's fields are no condition of a dose (R55). -/
theorem State.putSlot_dose (s : State) (k : SlotIx) (x : Slot) : DoseOk s → DoseOk (s.putSlot k x) :=
  WashFrame.dose_of rfl rfl rfl rfl rfl rfl

/-- A sample changes, of the records, its slot's (R38, R43). -/
theorem State.applySample_records (s : State) (k : SlotIx) (v : Nat) (q : Byte) :
    ∃ x, RecordsFrame (s.putSlot k x) (s.applySample k v q) := by
  unfold State.applySample
  extract_lets x r t u
  refine ⟨{ x with base := r }, ?_⟩
  have hu : RecordsFrame t u := by
    unfold u; split
    · exact .refl t
    · exact t.notify_records _
    · exact .refl t
  split
  · exact .refl t
  · exact hu.trans (.of_wash (u.reportSlot_wash k _))

/-- From `s` to `t` the records stand but for the slots. -/
structure SlotsWritten (s t : State) : Prop where
  same : ∃ x, RecordsSame { s with slots := x } t
  dose : DoseOk s → DoseOk t

theorem SlotsWritten.of_records {s t : State} (h : RecordsFrame s t) : SlotsWritten s t :=
  ⟨⟨s.slots, h.toRecordsSame⟩, h.dose⟩

theorem SlotsWritten.of_putSlot {s t : State} {k : SlotIx} {x : Slot}
    (h : RecordsFrame (s.putSlot k x) t) : SlotsWritten s t :=
  ⟨⟨s.slots.set k x, h.toRecordsSame⟩, fun d => h.dose (s.putSlot_dose k x d)⟩

theorem SlotsWritten.trans {s t u : State} (h : SlotsWritten s t) (k : RecordsFrame t u) :
    SlotsWritten s u := by
  obtain ⟨x, hx⟩ := h.same
  exact ⟨⟨x, hx.trans k.toRecordsSame⟩, k.dose ∘ h.dose⟩

/-- A slot whose samples' fields stand as they were: a substitute is set (R42). -/
theorem State.putSubstitute_records (s : State) (k : SlotIx) (v m : Nat) :
    RecordsFrame s (s.putSubstitute k v m) := by
  unfold State.putSubstitute
  extract_lets x
  refine RecordsFrame.trans (t := s.putSlot k { x with sub := some ⟨v, m * 60⟩ })
    ⟨⟨rfl, rfl, fun j => ?_, rfl, rfl, rfl, rfl⟩, s.putSlot_dose k _⟩ (.of_wash (State.reportSlot_wash _ k _))
  rw [(s.putSlot_fields k _).2.2.2.2.2.2.1, Table.get_set]
  split
  · rename_i e; rw [e]
  · rfl

theorem State.makeStale_written (s : State) (k : SlotIx) : SlotsWritten s (s.makeStale k) :=
  .of_putSlot (k := k) (x := { s.slots.get k with base := { (s.slots.get k).base with state := .stale } })
    (.refl _)

/-! ## Lines and filters -/

theorem State.clearLine_records (s : State) (i : LineIx) : RecordsFrame s (s.clearLine i).state := by
  unfold State.clearLine
  extract_lets l t
  split
  · rename_i e
    have hput : GateFrame s t := s.putLine_gate i _
    refine (RecordsFrame.of_gate hput fun d => ?_).trans
      (.of_wash (.of_quiet (t.originate_quiet _ _)))
    refine ((DoseBut.of d).put _ (fun x => absurd (d.1.1 i x) ?_) (.inr rfl)).dose (by simp)
    rw [show (s.gate.get i).state = _ from e]; decide
  · exact .refl s

theorem State.clearIgnored_wash (s : State) (f : FilterIx) : WashFrame s (s.clearIgnored f) := by
  unfold State.clearIgnored
  extract_lets t
  have ht : WashFrame s t := s.updArb_wash f _
  split
  · exact ht.trans (t.rejudgeDp_wash f)
  · exact ht

theorem State.clearFilter_records (s : State) (f : FilterIx) :
    RecordsFrame s (s.clearFilter f).state := by
  have hc := s.clearIgnored_wash f
  unfold State.clearFilter
  split
  · exact .of_wash ((hc.trans (State.startAttempt_wash _ f)).trans (State.arbitrate_wash _))
  split
  · exact .of_wash (hc.trans (State.arbitrate_wash _))
  · exact .refl s

theorem State.clearFault_records (s : State) (tag : Byte) (args : List Byte) :
    RecordsFrame s (s.clearFault tag args) := by
  refine State.manage_records fun a _ => ?_
  cases a with
  | line i => exact s.clearLine_records i
  | filter f => exact s.clearFilter_records f

theorem State.addBatch_records (s : State) (i : LineIx) : RecordsFrame s (s.addBatch i) := by
  unfold State.addBatch
  split
  · exact .refl s
  split
  · exact .refl s
  extract_lets b p t
  have ht : RecordsFrame s t := .of_wash (.of_quiet (s.putProg_quiet i _))
  split
  · exact ht.trans (.of_gate (t.stepEnded_gate i _) (t.stepEnded_dose i _))
  · exact ht

theorem State.stepEnded_records (s : State) (i : LineIx) (p : Prog) :
    RecordsFrame s (s.stepEnded i p) := .of_gate (s.stepEnded_gate i p) (s.stepEnded_dose i p)

theorem State.startProgramme_records (s : State) (i : LineIx) (w : Which) :
    RecordsFrame s (s.startProgramme i w).state := by
  have hb : RecordsFrame s (s.beginStep i w 0).1 := .of_gate (s.beginStep_gate i w 0)
    (s.beginStep_dose i w 0)
  unfold State.startProgramme
  split
  · exact .refl s
  split
  · exact .refl s
  extract_lets o
  split
  · exact .refl s
  · exact hb
  · exact hb
  · exact hb

theorem State.verdict_records (s : State) (f : FilterIx) : RecordsFrame s (s.verdict f) := by
  unfold State.verdict
  extract_lets a v
  split
  · exact .refl s
  split
  · exact .of_wash (s.updArb_wash f _)
  split
  · exact .of_wash ((s.updArb_wash f _).trans (State.notify_wash _ _))
  · exact .of_wash ((s.updArb_wash f _).trans (State.notify_wash _ _))

/-- The restore limit faults enabled lines only (R133). -/
theorem State.restoreExpired_records (s : State) : RecordsFrame s s.restoreExpired := by
  unfold State.restoreExpired State.forFilters State.forLines
  extract_lets t u v
  have ht : RecordsFrame s t := .foldl (fun s f => by
    split
    · exact .of_wash (s.attemptExpired_wash f)
    · exact .refl s) _ s
  have hu : RecordsFrame t u := .foldl (fun s i => by
    split
    · rename_i e
      refine .of_gate (s.faultLine_gate i _ _) fun d => s.faultLine_dose i _ _ d fun x => ?_
      simp [State.lineUnsettled, x] at e
    · exact .refl s) _ t
  have hv : RecordsFrame u v := by
    unfold v; split
    · exact u.notify_records _
    · exact .refl u
  exact ((ht.trans hu).trans hv).trans v.completeRestore_records

theorem State.cutSegment_records (s : State) (g : SegIx) (x : SegState) (c : Cause) :
    RecordsFrame s (s.cutSegment g x c) := by
  unfold State.cutSegment
  extract_lets t
  exact (RecordsFrame.trans (t := t) .of_others (t.notify_records _)).trans
    (.of_wash (State.reportSegment_wash _ g))

theorem State.putSegState_records (s : State) (g : SegIx) (x : SegState) (n : Option Nat) :
    RecordsFrame s ((s.putSegState g x n).reportSegment g) :=
  RecordsFrame.trans (t := s.putSegState g x n) .of_others (.of_wash (State.reportSegment_wash _ g))

theorem State.offerRestore_wash (s : State) (g : SegIx) : WashFrame s (s.offerRestore g) := by
  unfold State.offerRestore State.forFilters State.forLines
  extract_lets t u
  have ht : WashFrame s t := .foldl (fun s f => by
    split
    · exact s.originate_wash _ _
    · exact .refl s) _ s
  have hu : WashFrame t u := .foldl (fun s i => by
    split
    · exact s.originate_wash _ _
    · exact .refl s) _ t
  split
  · exact (ht.trans hu).trans (u.originate_wash _ _)
  · exact ht.trans hu

theorem State.firstUp_records (s : State) (g : SegIx) : RecordsFrame s (s.firstUp g) := by
  unfold State.firstUp
  split
  · exact .refl s
  have hseen : ∀ x : Table 4 Bool, RecordsFrame s { s with seq := { s.seq with
      restore := { s.seq.restore with seenUp := x } } } := fun _ => .of_others
  dsimp only
  split
  · exact (hseen _).trans (.of_wash (State.offerRestore_wash _ g))
  · exact hseen _

/-- The report of the plant stop input leaves the records, and sets every permit afresh (R55, R68). -/
theorem State.gatePlantStop_records (s : State) (on : Bool) : RecordsFrame s (s.gatePlantStop on) := by
  have hpin : RecordsSame s { s with pins := { s.pins with plantStop := on } } :=
    ⟨rfl, rfl, fun _ => rfl, rfl, rfl, rfl, rfl⟩
  refine ⟨hpin.trans (.of_gate (s.gatePlantStop_gate on)), fun d => ?_⟩
  have hfresh : DoseOk ({ s with pins := { s.pins with plantStop := on } } : State).refreshPermits :=
    State.refreshPermits_dose _ d.1 d.2.1 d.2.2.2
  unfold State.gatePlantStop State.forLines
  dsimp only
  revert hfresh
  generalize ({ s with pins := { s.pins with plantStop := on } } : State).refreshPermits = t
  exact fun hfresh => dose_foldl (fun u i h => u.applyCauses_dose i _ h) _ t hfresh

end Sys2Proof.Machine
end

section
/-!
PROOFS. Every command is a step of one of a few kinds in what it may do to the records; O10 and O15 are read off
the kinds.
-/

namespace Sys2Proof.Machine

open Sys2Proof.Safety Sys2Proof.Claims

/-! ## Every command -/

/-- The commands that may change what the samples gave a slot (R37, R39, R43). -/
def ownsReadings : Instr → Bool
  | .sample _ _ _ _ _ | .slotStale _ | .underlyingStale _ => true
  | _ => false

/-- What command `c`, taken from `s` to `t`, may have done to the records. -/
inductive RecordsStep (s t : State) : Instr → Prop
  | kept {c : Instr} (h : RecordsFrame s t) : RecordsStep s t c
  | reset {c : Instr} (hc : isReset c = true) (dose : DoseOk t)
      (time : c = .resetPin → t.clock.day = s.clock.day ∧ t.clock.minute = s.clock.minute ∧
        t.clock.second = s.clock.second ∧ t.clock.valid = s.clock.valid) : RecordsStep s t c
  | pulse {i : InputIx} (x : Flow) (same : RecordsSame { s with flow := x } t)
      (dose : DoseOk s → DoseOk t) : RecordsStep s t (.flowPulse i)
  | window (x : Flow) (same : RecordsSame { s with flow := x } t) (dose : DoseOk s → DoseOk t) :
      RecordsStep s t .windowEnd
  | reading {c : Instr} (hc : ownsReadings c = true) (h : SlotsWritten s t) : RecordsStep s t c
  | minute (x : Clock) (h : RecordsFrame { s with clock := x } t) : RecordsStep s t .minuteChange
  | clock {tag : Byte} {args : List Byte} (x : Clock) (h : RecordsFrame { s with clock := x } t) :
      RecordsStep s t (.setClock tag args)
  | field {tag : Byte} {args : List Byte} (h : FieldFrame s t) : RecordsStep s t (.setField tag args)

/-- The command answers a next state, and that is a step of this kind. -/
abbrev StepsRecords (c : Instr) (s : State) : Prop :=
  ∃ t, exec c s = .next t ∧ RecordsStep s t c

/-! ### Frames -/

theorem execForeignFrame_records (p : Port) (k : FrameKind) (a d : Byte) (s : State) :
    StepsRecords (.foreignFrame p k a d) s := by
  refine ⟨_, rfl, .kept ?_⟩
  cases p with
  | supervisor =>
    dsimp only
    split
    · exact s.notify_records _
    · exact .refl s
  | segment g => exact State.segFrame_keeps (.refl s) s.notify_records (.refl s)

theorem execMisplacedStation_records (g : SegIx) (k : FrameKind) (a d : Byte) (s : State) :
    StepsRecords (.misplacedStation g k a d) s := by
  refine ⟨_, rfl, .kept ?_⟩
  split
  · exact .refl s
  · exact State.segFrame_keeps (.refl s) s.notify_records (.refl s)

theorem execStationCommand_records (d : Byte) (n : Fin 8) (v : Half) (s : State) :
    StepsRecords (.stationCommand d n v) s := by
  refine ⟨_, rfl, .kept ?_⟩
  split
  · exact s.stationCommand_records _
  split
  · exact s.notify_records _
  · exact .refl s

theorem execSample_records (g : SegIx) (a : Byte) (n : Fin 8) (v : Half) (q : Byte) (s : State) :
    StepsRecords (.sample g a n v q) s := by
  refine ⟨_, rfl, .reading rfl (State.segFrame_keeps (P := SlotsWritten s) (.of_records (.refl s))
    (fun _ => .of_records (s.notify_records _)) ?_)⟩
  dsimp only
  split
  · obtain ⟨x, hx⟩ := s.applySample_records _ v.toNat q
    exact (SlotsWritten.of_putSlot hx).trans (State.forwardUp_records _ _)
  · exact .of_records (s.forwardUp_records _)

theorem execEcho_records (g : SegIx) (a : Byte) (n : Fin 8) (v : Half) (s : State) :
    StepsRecords (.echo g a n v) s := by
  refine ⟨_, rfl, .kept (State.segFrame_keeps (.refl s) s.notify_records ?_)⟩
  exact (((s.consumeEcho_records _ _ _).trans (State.checkRestore_records _)).trans
    (State.arbitrate_records _)).trans (State.forwardUp_records _ _)

theorem execUnknownRequestCode_records (code tag : Byte) (s : State) :
    StepsRecords (.unknownRequestCode code tag) s := by
  refine ⟨_, rfl, .kept ?_⟩
  split
  · exact .refl s
  split
  · exact .of_others
  · exact .of_others

theorem execRequestDiscarded_records (code tag : Byte) (s : State) :
    StepsRecords (.requestDiscarded code tag) s := by
  refine ⟨_, rfl, .kept ?_⟩
  split
  · exact .refl s
  · exact .of_others

theorem execTransmitStart_records (p : Port) (s : State) : StepsRecords (.transmitStart p) s := by
  refine ⟨_, rfl, .kept ?_⟩
  cases p with
  | segment g => exact .of_others
  | supervisor =>
    dsimp only [State.supervisorStart]
    split
    · exact .of_others
    · exact .of_others
    · exact .of_others
    · exact .refl s

/-! ### Segments and flow -/

theorem execSignalLoss_records (g : SegIx) (s : State) : StepsRecords (.signalLoss g) s := by
  refine ⟨_, rfl, .kept ?_⟩
  split
  · exact s.putSegState_records g _ _
  · exact s.cutSegment_records g _ _
  all_goals exact .refl s

theorem execSignalReturn_records (g : SegIx) (s : State) : StepsRecords (.signalReturn g) s := by
  refine ⟨_, rfl, .kept ?_⟩
  split
  · exact s.putSegState_records g _ _
  · exact s.putSegState_records g _ _
  all_goals exact .refl s

theorem execLossTimerExpiry_records (g : SegIx) (s : State) :
    StepsRecords (.lossTimerExpiry g) s := by
  refine ⟨_, rfl, .kept ?_⟩
  split
  · exact s.cutSegment_records g _ _
  all_goals exact .refl s

theorem execRecoveryTimerExpiry_records (g : SegIx) (s : State) :
    StepsRecords (.recoveryTimerExpiry g) s := by
  have hup : RecordsFrame s (s.putSegState g .up none) := .of_others
  refine ⟨_, rfl, .kept ?_⟩
  split
  · exact ((hup.trans (State.notify_records _ _)).trans (State.firstUp_records _ g)).trans
      (.of_wash (State.reportSegment_wash _ g))
  all_goals exact .refl s

theorem execFlowPulse_records (i : InputIx) (s : State) : StepsRecords (.flowPulse i) s :=
  ⟨_, rfl, .pulse { s.flow with inputs := s.flow.inputs.upd i fun x =>
      { x with windowCount := min Config.pulseCap (x.windowCount + 1) } }
    ⟨rfl, rfl, fun _ => rfl, rfl, rfl, rfl, rfl⟩
    (dose_of_view (fun _ => ⟨rfl, rfl⟩) (fun _ => ⟨rfl, rfl, rfl⟩) (fun _ => rfl) (fun _ => .inl)
      rfl rfl rfl)⟩

theorem execWindowEnd_records (s : State) : StepsRecords .windowEnd s := by
  refine ⟨_, rfl, ?_⟩
  split
  · exact .window _ s.windowEnd_same s.windowEnd_dose
  · exact .kept (.refl s)

theorem execStarvedLong_records (c : CircuitIx) (s : State) : StepsRecords (.starvedLong c) s := by
  refine ⟨_, rfl, .kept ?_⟩
  split
  · refine (s.notify_records ⟨.starvedLong, .circuit, c.val + 1, (s.flowClass c).cause,
      (s.flow.circuits.get c).starvedTimer⟩).trans ⟨⟨rfl, rfl, fun _ => rfl, rfl, rfl, rfl, rfl⟩,
        dose_of_view (fun _ => ⟨rfl, rfl⟩) (fun _ => ⟨rfl, rfl, rfl⟩) (fun j => ?_) (fun _ => .inl)
          rfl rfl rfl⟩
    simp only [State.flowClass, State.updCircuit_fields, Table.get_upd]
    split <;> rfl
  · exact .refl s

/-! ### Readings, lines and filters -/

theorem execSlotStale_records (k : SlotIx) (s : State) : StepsRecords (.slotStale k) s := by
  refine ⟨_, rfl, .reading rfl ?_⟩
  split
  · exact ((s.makeStale_written k).trans (State.notify_records _ _)).trans
      (.of_wash (State.reportSlot_wash _ k _))
  · exact .of_records (.refl s)

theorem execUnderlyingStale_records (k : SlotIx) (s : State) :
    StepsRecords (.underlyingStale k) s := by
  refine ⟨_, rfl, .reading rfl ?_⟩
  split
  · exact s.makeStale_written k
  · exact .of_records (.refl s)

theorem execSubstituteExpiry_records (k : SlotIx) (s : State) :
    StepsRecords (.substituteExpiry k) s := by
  refine ⟨_, rfl, .kept ?_⟩
  split
  · exact .of_slots (s.endSubstitute_slots k _).1
  · exact .refl s

theorem execResumeTimerExpiry_records (i : LineIx) (s : State) :
    StepsRecords (.resumeTimerExpiry i) s := by
  refine ⟨_, rfl, .kept ?_⟩
  split
  · rename_i e
    obtain ⟨hstate, -⟩ := e
    exact .of_gate (s.resumeExpired_gate i) fun d => s.resumeExpired_dose i (.of d)
      (by rw [hstate]; decide) (d.2.1 i (by rw [hstate]; decide))
  · exact .refl s

theorem execConfirmTimerExpiry_records (i : LineIx) (s : State) :
    StepsRecords (.confirmTimerExpiry i) s := by
  refine ⟨_, rfl, .kept ?_⟩
  split
  · rename_i e
    obtain ⟨-, henabled, -⟩ := e
    exact .of_gate (s.faultLine_gate i _ _) fun d => s.faultLine_dose i _ _ d henabled
  · exact .refl s

theorem execTotaliserAddition_records (i : LineIx) (s : State) :
    StepsRecords (.totaliserAddition i) s := by
  have htotal : RecordsFrame s (s.addTotal i) := .of_others
  refine ⟨_, rfl, .kept ?_⟩
  split
  · exact htotal.trans (State.addBatch_records _ i)
  · exact .refl s

theorem execProgrammeStepEnd_records (i : LineIx) (s : State) :
    StepsRecords (.programmeStepEnd i) s := by
  refine ⟨_, rfl, .kept ?_⟩
  split
  · exact .refl s
  split
  · exact s.stepEnded_records i _
  · exact .refl s

theorem execBatchCap_records (i : LineIx) (s : State) : StepsRecords (.batchCap i) s := by
  refine ⟨_, rfl, .kept ?_⟩
  split
  · exact .refl s
  split
  · exact .refl s
  split
  · exact (s.notify_records _).trans (State.stepEnded_records _ i _)
  · exact .refl s

theorem execRunHoursCount_records (f : FilterIx) (s : State) :
    StepsRecords (.runHoursCount f) s := by
  refine ⟨_, rfl, .kept ?_⟩
  split
  · dsimp only
    split
    · exact .of_wash (s.putRunHours_wash f _)
    · exact .of_wash (((s.putRunHours_wash f _).trans (State.rejudgeHours_wash _ f)).trans
        (State.arbitrate_wash _))
  · exact .refl s

theorem execHoldOffExpiry_records (f : FilterIx) (s : State) :
    StepsRecords (.holdOffExpiry f) s := by
  refine ⟨_, rfl, .kept ?_⟩
  split
  · exact .of_wash ((s.updArb_wash f _).trans (State.arbitrate_wash _))
  · exact .refl s

theorem execCheckExpiry_records (f : FilterIx) (s : State) : StepsRecords (.checkExpiry f) s := by
  refine ⟨_, rfl, .kept ?_⟩
  split
  · exact (s.verdict_records f).trans (.of_wash (((State.updArb_wash _ f _).trans
      (State.rejudgeDp_wash _ f)).trans (State.arbitrate_wash _)))
  · exact .refl s

theorem execServiceAttemptExpiry_records (f : FilterIx) (s : State) :
    StepsRecords (.serviceAttemptExpiry f) s := by
  refine ⟨_, rfl, .kept ?_⟩
  split
  · exact .of_wash ((s.attemptExpired_wash f).trans (State.arbitrate_wash _))
  · exact .refl s

theorem execTravelTimerExpiry_records (f : FilterIx) (s : State) :
    StepsRecords (.travelTimerExpiry f) s := by
  refine ⟨_, rfl, .kept ?_⟩
  split
  · exact .refl s
  split
  · refine RecordsFrame.trans ?_ (State.arbitrate_records _)
    split
    · exact .of_wash (s.noReturnFault_wash f)
    · exact .of_wash (s.abort_wash f _)
  · exact .refl s
  · exact .refl s

theorem execDwellEnd_records (f : FilterIx) (s : State) : StepsRecords (.dwellEnd f) s := by
  refine ⟨_, rfl, .kept ?_⟩
  split
  · exact .refl s
  split
  · exact .of_wash (s.dwellEnded_wash f _)
  all_goals exact .refl s

theorem execRestoreLimit_records (s : State) : StepsRecords .restoreLimit s := by
  refine ⟨_, rfl, .kept ?_⟩
  split
  · exact s.restoreExpired_records
  · exact .refl s

/-! ### Mode, clock, store and inputs -/

/-- The liveness and the fallback counters run within their mode (R145, R147). -/
theorem State.sameMode_records (s : State) (m : ModeState) (h : m.mode = s.modeNow) :
    RecordsFrame s { s with mode := { s.mode with state := m } } :=
  ⟨⟨rfl, rfl, fun _ => rfl, rfl, rfl, rfl, rfl⟩, dose_of_view (fun _ => ⟨rfl, rfl⟩)
    (fun _ => ⟨rfl, rfl, rfl⟩) (fun _ => rfl) (fun _ => .inl) rfl rfl h⟩

theorem execLivenessPeriodEnd_records (s : State) : StepsRecords .livenessPeriodEnd s := by
  refine ⟨_, rfl, .kept ?_⟩
  split
  · rename_i l hl
    split
    · exact .refl s
    split
    · exact s.enterFallback_records _
    · have hlate := s.sameMode_records (.supervised { l with elapsed := 0, late := true })
        (by simp only [State.modeNow, hl, ModeState.mode])
      exact (hlate.trans (State.notify_records _ _)).trans .of_others
  all_goals exact .refl s

theorem execReturnTimerExpiry_records (s : State) : StepsRecords .returnTimerExpiry s := by
  refine ⟨_, rfl, .kept ?_⟩
  split
  · rename_i f hf
    split
    · exact s.sameMode_records _ (by simp only [State.modeNow, hf, ModeState.mode])
    · exact .refl s
  all_goals exact .refl s

theorem execFallbackLimit_records (s : State) : StepsRecords .fallbackLimit s := by
  refine ⟨_, rfl, .kept ?_⟩
  split
  · split
    · exact s.enterLockout_records _ _
    · exact .refl s
  all_goals exact .refl s

theorem execMinuteChange_records (s : State) : StepsRecords .minuteChange s := by
  refine ⟨_, rfl, ?_⟩
  split
  · exact .minute _ (State.evaluate_records _)
  · exact .kept (.refl s)

theorem execSettingsWriteEnd_records (s : State) : StepsRecords .settingsWriteEnd s := by
  refine ⟨_, rfl, .kept ?_⟩
  split
  · split
    · exact .refl s
    · exact .of_others
  · exact .refl s

theorem execCommitWriteEnd_records (s : State) : StepsRecords .commitWriteEnd s := by
  refine ⟨_, rfl, .kept ?_⟩
  split
  · split
    · exact .of_others
    · exact .refl s
  · exact .refl s

theorem execPlantStopAsserted_records (s : State) : StepsRecords .plantStopAsserted s := by
  refine ⟨_, rfl, .kept ?_⟩
  split
  · exact .refl s
  · exact (((RecordsFrame.of_wash (s.setPb_wash false)).trans
      (State.gatePlantStop_records _ true)).trans
      (.of_wash (WashFrame.foldl (fun t f => t.abort_wash f .plantStop) (List.finRange 8) _))).trans
      (State.arbitrate_records _)

theorem execPlantStopReleased_records (s : State) : StepsRecords .plantStopReleased s := by
  refine ⟨_, rfl, .kept ?_⟩
  split
  · exact (s.gatePlantStop_records false).trans (State.arbitrate_records _)
  · exact .refl s

/-! ### Requests -/

@[simp] theorem State.reply_state (s : State) (r : Result) : (s.reply r).state = s := rfl

/-- A request whose body leaves the records leaves them. -/
theorem StepsRecords.of_manage {α : Type} {c : Instr} {s : State} {r : Request} {tag : Byte}
    {modeOk : Bool} {args : Option α} {body : α → Reply}
    (he : exec c s = .next (s.manage r tag modeOk args body))
    (hbody : ∀ a, args = some a → RecordsFrame s (body a).state) : StepsRecords c s :=
  ⟨_, he, .kept (State.manage_records hbody)⟩

theorem State.storeBody_records (s : State) (commit : Bool) (tag : Byte) :
    RecordsFrame s (s.storeBody commit tag).state := by
  unfold State.storeBody
  split
  · exact .refl s
  · exact .of_others

theorem execRefresh_records (tag : Byte) (args : List Byte) (s : State) :
    StepsRecords (.refresh tag args) s := by
  refine .of_manage rfl fun _ _ => ?_
  split
  · rename_i l hl
    unfold State.refreshSupervised
    split
    · exact s.enterFallback_records _
    · exact s.sameMode_records _ (by simp only [State.modeNow, hl, ModeState.mode])
  · rename_i f hf
    unfold State.refreshFallback
    dsimp only
    split
    · exact s.changeMode_records _ _
    · exact s.sameMode_records _ (by simp only [State.modeNow, hf, ModeState.mode])
  all_goals exact .refl s

theorem execRelease_records (tag : Byte) (args : List Byte) (s : State) :
    StepsRecords (.release tag args) s := by
  have hflag : RecordsFrame s { s.updRetained fun r => { r with
      lockoutFlag := false, recoveryCount := 0 } with
        pins := { s.pins with lockout := false } } := .of_others
  refine .of_manage rfl fun _ _ => ?_
  split
  · exact hflag.trans (State.changeMode_records _ _ _)
  · exact .refl s

theorem execRestart_records (tag : Byte) (args : List Byte) (s : State) :
    StepsRecords (.restart tag args) s := by
  refine .of_manage rfl fun _ _ => ?_
  split
  · exact .refl s
  · exact .of_others

/-- SET_CLOCK sets the time and evaluates the flags (R156). -/
theorem execSetClock_records (tag : Byte) (args : List Byte) (s : State) :
    StepsRecords (.setClock tag args) s := by
  refine ⟨_, rfl, State.manage_keeps (P := fun t => RecordsStep s t _) (.kept .of_others)
    (fun _ _ => .kept .of_others) fun a _ _ _ _ => ?_⟩
  exact .clock _ ((State.evaluate_records _).trans .of_others)

/-- SET_FIELD writes a field, or breaches the configuration (R144, R162). -/
theorem execSetField_records (tag : Byte) (args : List Byte) (s : State) :
    StepsRecords (.setField tag args) s := by
  refine ⟨_, rfl, ?_⟩
  split
  · refine .kept ?_
    unfold State.configBreach
    split
    · exact .of_others
    · exact (s.enterFallback_records _).trans .of_others
  · refine State.manage_keeps (P := fun t => RecordsStep s t _) (.kept .of_others)
      (fun _ _ => .kept .of_others) fun a _ _ _ _ => ?_
    unfold State.setFieldBody
    split
    · exact .kept .of_others
    split
    · exact .kept .of_others
    · exact .field ((s.writeField_field _ _).trans .of_others)

theorem execClearSubstitute_records (tag : Byte) (args : List Byte) (s : State) :
    StepsRecords (.clearSubstitute tag args) s := by
  refine .of_manage rfl fun k _ => ?_
  split
  · exact .refl s
  · exact .of_slots (s.endSubstitute_slots k _).1

theorem execStopProgramme_records (tag : Byte) (args : List Byte) (s : State) :
    StepsRecords (.stopProgramme tag args) s := by
  refine .of_manage rfl fun i _ => ?_
  split
  · exact .refl s
  · exact (RecordsFrame.of_wash (.of_quiet (s.putProg_quiet i none))).trans
      (.of_gate (State.release_gate _ i) (State.release_dose _ i))

theorem execBackwashNow_records (tag : Byte) (args : List Byte) (s : State) :
    StepsRecords (.backwashNow tag args) s := by
  refine .of_manage rfl fun f _ => ?_
  split
  · exact .refl s
  split
  · exact .refl s
  · exact .of_wash ((s.updArb_wash f _).trans (State.arbitrate_wash _))

theorem execAbortBackwash_records (tag : Byte) (args : List Byte) (s : State) :
    StepsRecords (.abortBackwash tag args) s := by
  refine .of_manage rfl fun f _ => ?_
  split
  · exact .of_wash (s.abort_wash f _)
  split
  · exact .of_wash ((s.dropManual_wash f).trans (State.arbitrate_wash _))
  · exact .refl s

theorem State.putMask_records (s : State) (f : FilterIx) (on : Bool) :
    RecordsFrame s (s.putMask f on) :=
  .of_wash ((s.updArb_wash f _).trans (State.arbitrate_wash _))

theorem execIsolateSegment_records (tag : Byte) (args : List Byte) (s : State) :
    StepsRecords (.isolateSegment tag args) s := by
  refine .of_manage rfl fun g _ => ?_
  split
  · exact .refl s
  · rw [State.reply_state]
    exact s.cutSegment_records g .forced .forced

theorem execRestoreSegment_records (tag : Byte) (args : List Byte) (s : State) :
    StepsRecords (.restoreSegment tag args) s := by
  refine .of_manage rfl fun g _ => ?_
  split
  · rw [State.reply_state]
    exact s.putSegState_records g .recovering (some Config.recoverySeconds)
  · exact .refl s

theorem execRestartReset_records (s : State) : StepsRecords .restartReset s := by
  cases hr : s.mode.restart with
  | none => exact ⟨s, by simp only [exec, execRestartReset, hr], .kept (.refl s)⟩
  | some cause =>
    refine ⟨if s.restartHeld cause then s else s.resetPart cause, by
      simp only [exec, execRestartReset, hr], ?_⟩
    split
    · exact .kept (.refl s)
    · exact .reset rfl (s.resetPart_dose cause) nofun

/-- Every command is a step of one of these kinds. -/
theorem exec_records (c : Instr) (s : State) : StepsRecords c s := by
  cases c with
  | powerOn => exact ⟨_, rfl, .reset rfl (s.resetPart_dose .powerOn) nofun⟩
  | resetPin =>
    exact ⟨_, rfl, .reset rfl (s.resetPart_dose .resetPin) fun _ => s.resetPart_time .resetPin (by decide)⟩
  | restartReset => exact execRestartReset_records s
  | frameDiscarded p b => exact ⟨_, rfl, .kept (.refl s)⟩
  | foreignFrame p k a d => exact execForeignFrame_records p k a d s
  | misplacedStation g k a d => exact execMisplacedStation_records g k a d s
  | stationCommand d n v => exact execStationCommand_records d n v s
  | sample g a n v q => exact execSample_records g a n v q s
  | echo g a n v => exact execEcho_records g a n v s
  | requestDiscarded code tag => exact execRequestDiscarded_records code tag s
  | unknownRequestCode code tag => exact execUnknownRequestCode_records code tag s
  | transmitStart p => exact execTransmitStart_records p s
  | signalLoss g => exact execSignalLoss_records g s
  | signalReturn g => exact execSignalReturn_records g s
  | lossTimerExpiry g => exact execLossTimerExpiry_records g s
  | recoveryTimerExpiry g => exact execRecoveryTimerExpiry_records g s
  | flowPulse i => exact execFlowPulse_records i s
  | windowEnd => exact execWindowEnd_records s
  | starvedLong c => exact execStarvedLong_records c s
  | slotStale k => exact execSlotStale_records k s
  | underlyingStale k => exact execUnderlyingStale_records k s
  | substituteExpiry k => exact execSubstituteExpiry_records k s
  | resumeTimerExpiry i => exact execResumeTimerExpiry_records i s
  | confirmTimerExpiry i => exact execConfirmTimerExpiry_records i s
  | totaliserAddition i => exact execTotaliserAddition_records i s
  | programmeStepEnd i => exact execProgrammeStepEnd_records i s
  | batchCap i => exact execBatchCap_records i s
  | runHoursCount f => exact execRunHoursCount_records f s
  | holdOffExpiry f => exact execHoldOffExpiry_records f s
  | checkExpiry f => exact execCheckExpiry_records f s
  | serviceAttemptExpiry f => exact execServiceAttemptExpiry_records f s
  | travelTimerExpiry f => exact execTravelTimerExpiry_records f s
  | dwellEnd f => exact execDwellEnd_records f s
  | restoreLimit => exact execRestoreLimit_records s
  | livenessPeriodEnd => exact execLivenessPeriodEnd_records s
  | returnTimerExpiry => exact execReturnTimerExpiry_records s
  | fallbackLimit => exact execFallbackLimit_records s
  | minuteChange => exact execMinuteChange_records s
  | settingsWriteEnd => exact execSettingsWriteEnd_records s
  | commitWriteEnd => exact execCommitWriteEnd_records s
  | plantStopAsserted => exact execPlantStopAsserted_records s
  | plantStopReleased => exact execPlantStopReleased_records s
  | keyswitchChange on => exact ⟨_, rfl, .kept .of_others⟩
  | refresh tag args => exact execRefresh_records tag args s
  | enterSupervised tag args => exact .of_manage rfl fun _ _ => s.changeMode_records _ _
  | enterHold tag args => exact .of_manage rfl fun _ _ => s.changeMode_records _ _
  | lock tag args => exact .of_manage rfl fun _ _ => s.enterLockout_records _ _
  | release tag args => exact execRelease_records tag args s
  | commitCommissioning tag args => exact .of_manage rfl fun _ _ => s.storeBody_records true tag
  | restart tag args => exact execRestart_records tag args s
  | clearRecoveryCount tag args => exact .of_manage rfl fun _ _ => .of_others
  | setClock tag args => exact execSetClock_records tag args s
  | setField tag args => exact execSetField_records tag args s
  | getField tag args => exact .of_manage rfl fun _ _ => .refl s
  | getState tag args => exact .of_manage rfl fun _ _ => .refl s
  | storeSettings tag args => exact .of_manage rfl fun _ _ => s.storeBody_records false tag
  | setSubstitute tag args => exact .of_manage rfl fun a _ => s.putSubstitute_records _ _ _
  | clearSubstitute tag args => exact execClearSubstitute_records tag args s
  | startProgramme tag args => exact .of_manage rfl fun a _ => s.startProgramme_records _ _
  | stopProgramme tag args => exact execStopProgramme_records tag args s
  | backwashNow tag args => exact execBackwashNow_records tag args s
  | abortBackwash tag args => exact execAbortBackwash_records tag args s
  | maskFilter tag args => exact .of_manage rfl fun f _ => s.putMask_records f true
  | unmaskFilter tag args => exact .of_manage rfl fun f _ => s.putMask_records f false
  | setLowest tag args => exact .of_manage rfl fun f _ => .of_wash (s.rotate_wash f)
  | clearFaultLine tag args => exact ⟨_, rfl, .kept (s.clearFault_records tag args)⟩
  | clearFaultFilter tag args => exact ⟨_, rfl, .kept (s.clearFault_records tag args)⟩
  | snapshot tag args => exact .of_manage rfl fun _ _ => .of_others
  | readSnapshot tag args => exact .of_manage rfl fun _ _ => .of_others
  | isolateSegment tag args => exact execIsolateSegment_records tag args s
  | restoreSegment tag args => exact execRestoreSegment_records tag args s
  | readConditions tag args => exact .of_manage rfl fun _ _ => .refl s
  | clearConditions tag args => exact .of_manage rfl fun _ _ => .of_others

/-- What a step may do to the records, of a command that is known to have answered. -/
theorem recordsStep_of_exec {c : Instr} {s t : State} (h : exec c s = .next t) : RecordsStep s t c := by
  obtain ⟨u, hu, k⟩ := exec_records c s
  obtain rfl : u = t := Host.Outcome.next.inj (hu.symm.trans h)
  exact k

theorem RecordsStep.dose {c : Instr} {s t : State} (h : RecordsStep s t c) (d : DoseOk s) : DoseOk t := by
  cases h with
  | kept k => exact k.dose d
  | reset _ dose _ => exact dose
  | pulse _ _ dose => exact dose d
  | window _ _ dose => exact dose d
  | reading _ k => exact k.dose d
  | minute _ k => exact k.dose d
  | clock _ k => exact k.dose d
  | field k => exact k.dose d

/-- Settles O10: a second moves nothing that a guarantee rests on, and every command keeps them. -/
theorem dosingGuaranteesAreKept : Obligations.DosingGuaranteesAreKept := by
  intro s t d h
  unfold step at h
  split at h
  · rw [← Host.Outcome.next.inj h]
    exact s.tick_dose d
  · exact (recordsStep_of_exec h).dose d

theorem RecordsStep.tables {c : Instr} {s t : State} (h : RecordsStep s t c)
    (n : t.tables ≠ s.tables) : isReset c = true ∨ ∃ tag args, c = .setField tag args := by
  cases h with
  | kept k => exact absurd k.tables n
  | reset hc _ _ => exact .inl hc
  | pulse _ same _ => exact absurd same.tables n
  | window _ same _ => exact absurd same.tables n
  | reading _ k =>
    obtain ⟨_, same⟩ := k.same
    exact absurd same.tables n
  | minute _ k => exact absurd k.tables n
  | clock _ k => exact absurd k.tables n
  | field _ => exact .inr ⟨_, _, rfl⟩

theorem RecordsStep.inputs {c : Instr} {s t : State} (h : RecordsStep s t c)
    (n : t.flow.inputs ≠ s.flow.inputs) :
    isReset c = true ∨ c = .windowEnd ∨ ∃ i, c = .flowPulse i := by
  cases h with
  | kept k => exact absurd k.inputs n
  | reset hc _ _ => exact .inl hc
  | pulse _ _ _ => exact .inr (.inr ⟨_, rfl⟩)
  | window _ _ _ => exact .inr (.inl rfl)
  | reading _ k =>
    obtain ⟨_, same⟩ := k.same
    exact absurd same.inputs n
  | minute _ k => exact absurd k.inputs n
  | clock _ k => exact absurd k.inputs n
  | field k =>
    obtain ⟨_, same⟩ := k.same
    exact absurd same.inputs n

/-- The commands that own the readings are the sample and the two stale rows. -/
theorem ownsReadings_cases {c : Instr} (h : ownsReadings c = true) :
    (∃ g a n v q, c = .sample g a n v q) ∨ (∃ k, c = .slotStale k) ∨ ∃ k, c = .underlyingStale k := by
  unfold ownsReadings at h
  split at h
  · exact .inl ⟨_, _, _, _, _, rfl⟩
  · exact .inr (.inl ⟨_, rfl⟩)
  · exact .inr (.inr ⟨_, rfl⟩)
  · cases h

theorem RecordsStep.base {c : Instr} {s t : State} (h : RecordsStep s t c) {k : SlotIx}
    (n : (t.slots.get k).base ≠ (s.slots.get k).base) :
    isReset c = true ∨ ownsReadings c = true := by
  cases h with
  | kept h => exact absurd (h.base k) n
  | reset hc _ _ => exact .inl hc
  | pulse _ same _ => exact absurd (same.base k) n
  | window _ same _ => exact absurd (same.base k) n
  | reading hc _ => exact .inr hc
  | minute _ h => exact absurd (h.base k) n
  | clock _ h => exact absurd (h.base k) n
  | field h =>
    obtain ⟨_, same⟩ := h.same
    exact absurd (same.base k) n

/-- The time of day as R154 holds it: day, minute, second and the valid flag. -/
abbrev TimeMoved (s t : State) : Prop :=
  t.clock.day ≠ s.clock.day ∨ t.clock.minute ≠ s.clock.minute ∨ t.clock.second ≠ s.clock.second ∨
    t.clock.valid ≠ s.clock.valid

theorem RecordsSame.time {s t : State} (h : RecordsSame s t) : ¬ TimeMoved s t := fun n =>
  n.elim (· h.day) (·.elim (· h.minute) (·.elim (· h.second) (· h.valid)))

theorem RecordsStep.time {c : Instr} {s t : State} (h : RecordsStep s t c) (n : TimeMoved s t) :
    c = .powerOn ∨ c = .restartReset ∨ c = .minuteChange ∨ ∃ tag args, c = .setClock tag args := by
  cases h with
  | kept h => exact absurd n h.time
  | reset hc _ time =>
    unfold isReset at hc
    split at hc
    · exact .inl rfl
    · obtain ⟨hday, hminute, hsecond, hvalid⟩ := time rfl
      exact (n.elim (· hday) (·.elim (· hminute) (·.elim (· hsecond) (· hvalid)))).elim
    · exact .inr (.inl rfl)
    · cases hc
  | pulse _ same _ => exact absurd n same.time
  | window _ same _ => exact absurd n same.time
  | reading _ h =>
    obtain ⟨_, same⟩ := h.same
    exact absurd n same.time
  | minute _ _ => exact .inr (.inr (.inl rfl))
  | clock _ _ => exact .inr (.inr (.inr ⟨_, _, rfl⟩))
  | field h =>
    obtain ⟨_, same⟩ := h.same
    exact absurd n same.time

/-- Settles O15: each of the four records is read off the kinds of steps. -/
theorem tablesFlowReadingsAndClockHaveTheirOwnCommands :
    Obligations.TablesFlowReadingsAndClockHaveTheirOwnCommands := by
  refine ⟨fun c s t h n => (recordsStep_of_exec h).tables n,
    fun c s t h n => (recordsStep_of_exec h).inputs n, fun c s t h ⟨k, n⟩ => ?_,
    fun c s t h n => (recordsStep_of_exec h).time n⟩
  exact ((recordsStep_of_exec h).base n).imp id ownsReadings_cases

end Sys2Proof.Machine
end

section
/-!
PROOFS. Pulses and a long starvation (R19, R20, R28, R29).
-/

namespace Sys2Proof.Machine

open Sys2Proof.Safety Sys2Proof.Claims

/-- A pulse raises its input's count up to 4095 and changes nothing else (R19, R20). -/
theorem execFlowPulse_counts (s : State) (i : InputIx) :
    ∃ t : State, exec (.flowPulse i) s = .next t ∧
      (t.flow.inputs.get i).windowCount = min 4095 ((s.flow.inputs.get i).windowCount + 1) ∧
      (t.flow.inputs.get i).lastCount = (s.flow.inputs.get i).lastCount ∧
      (t.flow.inputs.get i).overrange = (s.flow.inputs.get i).overrange ∧
      (∀ j, j ≠ i → t.flow.inputs.get j = s.flow.inputs.get j) ∧
      t.ports = s.ports ∧ SamePlant s t := by
  refine ⟨_, rfl, ?_, ?_, ?_, fun j hj => Table.get_upd_ne _ _ hj, rfl,
    ⟨rfl, rfl, rfl, rfl, rfl, rfl, rfl, rfl, rfl, rfl, rfl, rfl⟩⟩ <;>
    simp only [Table.get_upd_self, Config.pulseCap]

/-- STARVED_LONG is due where the circuit is enabled, starved, not reported, and its timer at the limit (R29). -/
theorem State.starvedLongDue_iff (s : State) (c : CircuitIx) :
    s.starvedLongDue c = true ↔ (s.tables.circuits.get c).enabled = true ∧
      (s.flowClass c).starved = true ∧ (s.flow.circuits.get c).starvedReported = false ∧
      (s.tables.circuits.get c).starvedLimit ≤ (s.flow.circuits.get c).starvedTimer := by
  simp only [State.starvedLongDue, State.flowClass, Bool.and_eq_true, Bool.not_eq_true',
    decide_eq_true_eq, and_assoc]

/-- A notice joins the queue where one of the 32 places is free (R17). -/
theorem State.notify_notices (s : State) (n : Notice) (h : s.ports.notices.length < 32) :
    (s.notify n).ports.notices = s.ports.notices ++ [n] := by
  unfold State.notify
  rw [if_pos (show s.ports.notices.length < Config.noticePlaces from h)]

/-- The row sends its notice and marks the period as reported, where it is due (R29). -/
theorem execStarvedLong_reports (s : State) (c : CircuitIx) (h : s.starvedLongDue c = true) :
    ∃ t : State, exec (.starvedLong c) s = .next t ∧
      (t.flow.circuits.get c).starvedReported = true ∧
      (s.ports.notices.length < 32 → t.ports.notices = s.ports.notices ++
        [⟨.starvedLong, .circuit, c.val + 1, (s.flowClass c).cause,
          (s.flow.circuits.get c).starvedTimer⟩]) ∧
      t.gate = s.gate ∧ t.seq = s.seq ∧ t.arbiter = s.arbiter := by
  have hexec : exec (.starvedLong c) s = .next ((s.notify ⟨.starvedLong, .circuit, c.val + 1,
      (s.flowClass c).cause, (s.flow.circuits.get c).starvedTimer⟩).updCircuit c
        fun x => { x with starvedReported := true }) := by
    simp only [exec, execStarvedLong, h, if_true]
  refine ⟨_, hexec, ?_, fun room => ?_, ?_⟩
  · simp only [State.updCircuit_fields, Table.get_upd_self]
  · simp only [State.updCircuit_fields]
    exact s.notify_notices _ room
  · simp only [State.updCircuit_fields, State.notify_fields, and_self]

/-- Settles O33: a pulse counts up to 4095, and the row of a long starvation acts once in a period. -/
theorem pulsesCountAndLongStarvationIsReported :
    Obligations.PulsesCountAndLongStarvationIsReported := by
  refine ⟨execFlowPulse_counts, fun s c henabled hstarved hreported hlimit =>
    execStarvedLong_reports s c ((s.starvedLongDue_iff c).2 ⟨henabled, hstarved, hreported, hlimit⟩),
    fun s c hreported => ?_⟩
  have hdue : s.starvedLongDue c = false := by
    by_contra due
    obtain ⟨-, -, hfresh, -⟩ := (s.starvedLongDue_iff c).1 (by simpa using due)
    rw [hreported] at hfresh
    cases hfresh
  simp only [exec, execStarvedLong, hdue, Bool.false_eq_true, if_false]

end Sys2Proof.Machine
end

section
/-!
PROOFS. One second of the timebase (00_scope "Time"; log entries 1 and 3): every counter moves, and exactly the
events that have come due are in the queue.
-/

namespace Sys2Proof.Machine

open Sys2Proof.Safety Sys2Proof.Claims

/-! ## The lists of due events -/

@[simp] theorem mem_dueIf {b : Bool} {c d : Instr} : c ∈ dueIf b d ↔ b = true ∧ c = d := by
  unfold dueIf
  split
  · rename_i h; simp [h]
  · rename_i h; simp [h]

@[simp] theorem State.mem_overdue {s : State} {c : Instr} : c ∈ s.overdue ↔ ∃ g,
    (s.segState g = .lost ∧ (s.ports.segments.get g).timer = some 0 ∧ c = .lossTimerExpiry g) ∨
      (s.segState g = .recovering ∧ (s.ports.segments.get g).timer = some 0 ∧
        c = .recoveryTimerExpiry g) := by
  simp [State.overdue, State.segState, and_assoc]

@[simp] theorem State.mem_dueWrite {s : State} {c : Instr} : c ∈ s.dueWrite ↔ ∃ tag,
    (s.mgmt.write = some ⟨false, tag, 0⟩ ∧ c = .settingsWriteEnd) ∨
      (s.mgmt.write = some ⟨true, tag, 0⟩ ∧ c = .commitWriteEnd) := by
  unfold State.dueWrite
  split
  · rename_i w hw
    obtain ⟨commit, tag, left⟩ := w
    cases commit <;> simp [hw]
  · rename_i hw
    simp [hw]

@[simp] theorem State.mem_dueLine {s : State} {i : LineIx} {c : Instr} : c ∈ s.dueLine i ↔
    (s.pins.permits.get i = true ∧ c = .totaliserAddition i) ∨
      (∃ p, s.runner.progs.get i = some p ∧ p.remaining = 0 ∧
        (((s.stepOf i p).kind = .batch ∧ c = .batchCap i) ∨
          ((s.stepOf i p).kind = .rate ∧ c = .programmeStepEnd i))) ∨
      ((s.gate.get i).state = .resuming ∧ (s.gate.get i).resume = 0 ∧ c = .resumeTimerExpiry i) ∨
      ((s.gate.get i).confirmation = .awaiting (some 0) ∧ c = .confirmTimerExpiry i) := by
  unfold State.dueLine
  cases hp : s.runner.progs.get i with
  | none => simp [and_assoc]
  | some p => cases hk : (s.stepOf i p).kind <;> simp [hk, and_assoc]

/-- The fields that the samples give a slot are VALID and older than the stale limit (R39). -/
theorem State.tooOld_iff {s : State} {k : SlotIx} : s.tooOld k = true ↔
    ∃ h, (s.slots.get k).base = ⟨.valid, some h⟩ ∧ (s.tables.slots.get k).staleLimit < h.age := by
  unfold State.tooOld
  dsimp only
  split
  · rename_i h hs hh
    have hb : (s.slots.get k).base = ⟨.valid, some h⟩ := by rw [← hs, ← hh]
    simp [hb]
  · rename_i hn
    refine ⟨nofun, fun ⟨h, hb, _⟩ => ?_⟩
    exact (hn h (by rw [hb]) (by rw [hb])).elim

@[simp] theorem State.mem_dueSlot {s : State} {k : SlotIx} {c : Instr} : c ∈ s.dueSlot k ↔
    ((s.slots.get k).sub = none ∧ s.tooOld k = true ∧ c = .slotStale k) ∨
      ((s.slots.get k).sub ≠ none ∧ s.tooOld k = true ∧ c = .underlyingStale k) ∨
      ((∃ v, (s.slots.get k).sub = some ⟨v, 0⟩) ∧ c = .substituteExpiry k) := by
  unfold State.dueSlot
  rcases hs : (s.slots.get k).sub with _ | ⟨v, n⟩
  · simp [hs]
  · simp [hs]

@[simp] theorem BwStep.mem_due {f : FilterIx} {x : BwStep} {c : Instr} : c ∈ x.due f ↔
    ((∃ o w, x = .move o w 0) ∧ c = .travelTimerExpiry f) ∨ (x = .dwell 0 ∧ c = .dwellEnd f) := by
  cases x <;> simp [BwStep.due]

@[simp] theorem State.mem_dueFilter {s : State} {f : FilterIx} {c : Instr} : c ∈ s.dueFilter f ↔
    (s.countsHours f = true ∧ c = .runHoursCount f) ∨
      ((s.arbiter.filters.get f).holdOff = some 0 ∧ c = .holdOffExpiry f) ∨
      ((s.arbiter.filters.get f).check = some 0 ∧ c = .checkExpiry f) ∨
      ((s.seq.filters.get f).attempt = some 0 ∧ c = .serviceAttemptExpiry f) ∨
      ∃ b, s.backwashOf f = some b ∧ c ∈ b.step.due f := by
  unfold State.dueFilter
  cases hb : s.backwashOf f with
  | none => simp
  | some b => simp

@[simp] theorem ModeState.mem_due {m : ModeState} {c : Instr} : c ∈ m.due ↔
    ((∃ l, m = .supervised l ∧ l.period ≤ l.elapsed) ∧ c = .livenessPeriodEnd) ∨
      ((∃ f, m = .fallback f ∧ f.returnTimer = some 0) ∧ c = .returnTimerExpiry) ∨
      ((∃ f, m = .fallback f ∧ f.limitHours * 3600 ≤ f.timer) ∧ c = .fallbackLimit) := by
  cases m <;> simp [ModeState.due]

@[simp] theorem State.mem_due {s : State} {minute : Bool} {c : Instr} : c ∈ s.due minute ↔
    c ∈ s.dueWrite ∨ (minute = true ∧ c = .minuteChange) ∨ (∃ i, c ∈ s.dueLine i) ∨
      (2 ≤ s.flow.windowSeconds ∧ c = .windowEnd) ∨
      (∃ j, s.starvedLongDue j = true ∧ c = .starvedLong j) ∨ (∃ k, c ∈ s.dueSlot k) ∨
      (∃ f, c ∈ s.dueFilter f) ∨
      ((s.seq.restore.running = true ∧ s.seq.restore.remaining = 0) ∧ c = .restoreLimit) ∨
      c ∈ s.mode.state.due := by
  simp only [State.due, List.mem_append, List.mem_flatMap, List.mem_finRange, true_and, mem_dueIf,
    decide_eq_true_eq, Bool.and_eq_true, beq_iff_eq, or_assoc]
  exact Iff.rfl

@[simp] theorem State.mem_tick {s : State} {c : Instr} :
    c ∈ s.tick.pending ↔ c ∈ s.overdue ∨ c ∈ s.tick.due (s.clock.second == 59) := by
  have h : s.tick.pending = s.overdue ++ s.tick.due (s.clock.second == 59) := rfl
  rw [h, List.mem_append]

/-! ## Each once, and no other -/

/-- The events that a second can bring due of a segment, a line, a slot and a filter, of the settings write and of
the Mode Controller's timers, each in the order of log entry 3. -/
def segmentEvents (g : SegIx) : List Instr := [.lossTimerExpiry g, .recoveryTimerExpiry g]
def lineEvents (i : LineIx) : List Instr :=
  [.totaliserAddition i, .batchCap i, .programmeStepEnd i, .resumeTimerExpiry i, .confirmTimerExpiry i]
def slotEvents (k : SlotIx) : List Instr := [.slotStale k, .underlyingStale k, .substituteExpiry k]
def filterEvents (f : FilterIx) : List Instr :=
  [.runHoursCount f, .holdOffExpiry f, .checkExpiry f, .serviceAttemptExpiry f, .travelTimerExpiry f,
    .dwellEnd f]
def writeEvents : List Instr := [.commitWriteEnd, .settingsWriteEnd]
def modeEvents : List Instr := [.livenessPeriodEnd, .returnTimerExpiry, .fallbackLimit]

/-- All of them, each once, in the order of log entry 3. -/
def timedEvents : List Instr :=
  (List.finRange 4).flatMap segmentEvents ++ (writeEvents ++ [Instr.minuteChange] ++
    (List.finRange 12).flatMap lineEvents ++ [Instr.windowEnd] ++
    (List.finRange 6).flatMap (fun c => [Instr.starvedLong c]) ++ (List.finRange 22).flatMap slotEvents ++
    (List.finRange 8).flatMap filterEvents ++ [Instr.restoreLimit] ++ modeEvents)

/-- The place of a timed event in that order. -/
def eventPlace : Instr → Nat
  | .lossTimerExpiry g => 2 * g.val
  | .recoveryTimerExpiry g => 2 * g.val + 1
  | .commitWriteEnd => 8
  | .settingsWriteEnd => 9
  | .minuteChange => 10
  | .totaliserAddition i => 11 + 5 * i.val
  | .batchCap i => 12 + 5 * i.val
  | .programmeStepEnd i => 13 + 5 * i.val
  | .resumeTimerExpiry i => 14 + 5 * i.val
  | .confirmTimerExpiry i => 15 + 5 * i.val
  | .windowEnd => 71
  | .starvedLong c => 72 + c.val
  | .slotStale k => 78 + 3 * k.val
  | .underlyingStale k => 79 + 3 * k.val
  | .substituteExpiry k => 80 + 3 * k.val
  | .runHoursCount f => 144 + 6 * f.val
  | .holdOffExpiry f => 145 + 6 * f.val
  | .checkExpiry f => 146 + 6 * f.val
  | .serviceAttemptExpiry f => 147 + 6 * f.val
  | .travelTimerExpiry f => 148 + 6 * f.val
  | .dwellEnd f => 149 + 6 * f.val
  | .restoreLimit => 192
  | .livenessPeriodEnd => 193
  | .returnTimerExpiry => 194
  | .fallbackLimit => 195
  | _ => 0

theorem timedEvents_places : timedEvents.map eventPlace = List.range 196 := by decide +kernel

/-- No event stands twice: their places are all different. -/
theorem timedEvents_nodup : timedEvents.Nodup :=
  .of_map eventPlace (timedEvents_places ▸ List.nodup_range)

theorem timedEvents_timed : ∀ c ∈ timedEvents, isTimedEvent c = true := by decide +kernel

theorem dueIf_sublist {b : Bool} {c d : Instr} (h : c = d) : (dueIf b c).Sublist [d] := by
  subst h
  unfold dueIf
  split
  · exact .refl _
  · exact List.nil_sublist _

theorem State.overdue_sublist (s : State) :
    s.overdue.Sublist ((List.finRange 4).flatMap segmentEvents) :=
  .flatMap_right _ fun _ _ => (dueIf_sublist rfl).append (dueIf_sublist rfl)

theorem State.dueWrite_sublist (s : State) : s.dueWrite.Sublist writeEvents := by
  unfold State.dueWrite
  split
  · rename_i w _
    cases w.commit with
    | true => exact (dueIf_sublist rfl).trans (by simp [writeEvents])
    | false => exact (dueIf_sublist rfl).trans (by simp [writeEvents])
  · exact List.nil_sublist _

/-- Of the two ends of a step one is due at most (R83, R84). -/
theorem stepEnd_sublist (b : Bool) (p : Prop) [Decidable p] (i : LineIx) :
    (dueIf b (if p then .batchCap i else .programmeStepEnd i)).Sublist
      [.batchCap i, .programmeStepEnd i] := by
  split
  · exact (dueIf_sublist rfl).trans (by simp)
  · exact (dueIf_sublist rfl).trans (by simp)

theorem State.dueLine_sublist (s : State) (i : LineIx) : (s.dueLine i).Sublist (lineEvents i) := by
  unfold State.dueLine
  cases s.runner.progs.get i with
  | none =>
    exact ((((dueIf_sublist rfl).append (List.nil_sublist [.batchCap i, .programmeStepEnd i])).append
      (dueIf_sublist rfl)).append (dueIf_sublist rfl))
  | some p =>
    exact ((((dueIf_sublist rfl).append (stepEnd_sublist _ _ i)).append
      (dueIf_sublist rfl)).append (dueIf_sublist rfl))

theorem State.dueSlot_sublist (s : State) (k : SlotIx) : (s.dueSlot k).Sublist (slotEvents k) :=
  ((dueIf_sublist rfl).append (dueIf_sublist rfl)).append (dueIf_sublist rfl)

theorem BwStep.due_sublist (x : BwStep) (f : FilterIx) :
    (x.due f).Sublist [.travelTimerExpiry f, .dwellEnd f] := by
  cases x with
  | move _ _ _ => exact (dueIf_sublist rfl).trans (by simp)
  | dwell _ => exact (dueIf_sublist rfl).trans (by simp)

theorem State.dueFilter_sublist (s : State) (f : FilterIx) :
    (s.dueFilter f).Sublist (filterEvents f) := by
  unfold State.dueFilter
  refine ((((dueIf_sublist rfl).append (dueIf_sublist rfl)).append (dueIf_sublist rfl)).append
    (dueIf_sublist rfl)).append (r₂ := [.travelTimerExpiry f, .dwellEnd f]) ?_
  cases s.backwashOf f with
  | none => exact List.nil_sublist _
  | some b => exact b.step.due_sublist f

theorem ModeState.due_sublist (m : ModeState) : m.due.Sublist modeEvents := by
  cases m with
  | supervised _ => exact (dueIf_sublist rfl).trans (by simp [modeEvents])
  | fallback _ => exact ((dueIf_sublist rfl).append (dueIf_sublist rfl)).trans (by simp [modeEvents])
  | startup => exact List.nil_sublist _
  | commission => exact List.nil_sublist _
  | hold => exact List.nil_sublist _
  | lockout => exact List.nil_sublist _

/-- The events of a second are some of the timed events, in their order. -/
theorem State.tick_sublist (s : State) : s.tick.pending.Sublist timedEvents :=
  s.overdue_sublist.append ((((((((
    (State.dueWrite_sublist _).append (dueIf_sublist rfl)).append
    (.flatMap_right _ fun i _ => State.dueLine_sublist _ i)).append (dueIf_sublist rfl)).append
    (.flatMap_right _ fun _ _ => dueIf_sublist rfl)).append
    (.flatMap_right _ fun k _ => State.dueSlot_sublist _ k)).append
    (.flatMap_right _ fun f _ => State.dueFilter_sublist _ f)).append (dueIf_sublist rfl)).append
    (ModeState.due_sublist _))

/-! ## The counters -/

section
variable (s : State)

@[simp] theorem State.tick_segment (g : SegIx) :
    s.tick.ports.segments.get g = (s.ports.segments.get g).tick := by simp [State.tick, State.count]
@[simp] theorem State.tick_circuit (c : CircuitIx) : s.tick.flow.circuits.get c =
    (s.flow.circuits.get c).tick (s.tables.circuits.get c).enabled := by
  simp [State.tick, State.count]
@[simp] theorem State.tick_slot (k : SlotIx) : s.tick.slots.get k = (s.slots.get k).tick := by
  simp [State.tick, State.count]
@[simp] theorem State.tick_line (i : LineIx) : s.tick.gate.get i = (s.gate.get i).tick := by
  simp [State.tick, State.count]
@[simp] theorem State.tick_prog (i : LineIx) :
    s.tick.runner.progs.get i = s.tickProg i (s.runner.progs.get i) := by
  simp [State.tick, State.count]
@[simp] theorem State.tick_arb (f : FilterIx) :
    s.tick.arbiter.filters.get f = (s.arbiter.filters.get f).tick := by simp [State.tick, State.count]
@[simp] theorem State.tick_filter (f : FilterIx) :
    s.tick.seq.filters.get f = (s.seq.filters.get f).tick := by simp [State.tick, State.count]
@[simp] theorem State.tick_flowClass (c : CircuitIx) : s.tick.flowClass c = s.flowClass c := by
  rw [State.flowClass, s.tick_circuit, Circuit.tick]
  split
  · rfl
  · rfl

end

/-- A starved class is LOW or NONE (R28). -/
theorem FlowClass.starved_iff (x : FlowClass) : x.starved = true ↔ x = .low ∨ x = .none := by
  cases x <;> simp [FlowClass.starved]

/-- A step's time counts while its line is DOSING, or STOPPED under a rate of 0 (R82). -/
theorem LineState.counts_iff (l : LineState) (r : Nat) :
    l.counts r = true ↔ l = .dosing ∨ (l = .stopped ∧ r = 0) := by
  simp [LineState.counts]

/-- Every counter moves by one second. -/
theorem State.tick_counters (s : State) : CountersMoved s s.tick := by
  refine ⟨fun g => ?_, rfl, rfl, rfl, fun c => ?_, fun k => ?_, fun i => ?_, fun i => ?_, fun f => ?_,
    fun f => ?_, ?_, ?_, ?_⟩
  · rw [s.tick_segment]; rfl
  · simp only [s.tick_circuit, Circuit.tick, State.flowClass, ← FlowClass.starved_iff, Bool.and_eq_true]
    split
    · rfl
    · rfl
  · rw [s.tick_slot]; exact ⟨rfl, rfl, rfl⟩
  · rw [s.tick_line, Line.tick]
    rcases (s.gate.get i).confirmation with _ | _ | n <;> rfl
  · rw [s.tick_prog, State.tickProg]
    congr 1
    funext p
    simp only [Prog.tick, LineState.counts_iff]
  · rw [s.tick_arb]; rfl
  · rw [s.tick_filter, SeqFilter.tick]
    rcases (s.seq.filters.get f).state with _ | _ | ⟨g, _ | _, a, w, r, e⟩ | _ <;> rfl
  · show s.seq.restore.tick = _
    rw [Restore.tick]
    split
    · rfl
    · rfl
  · show s.mode.state.tick = _
    cases s.mode.state <;> rfl
  · show s.clock.tick = _
    rw [Clock.tick]
    split
    · rfl
    · rfl

section
variable (s : State)

@[simp] theorem State.tick_permits : s.tick.pins.permits = s.pins.permits := rfl
@[simp] theorem State.tick_tables : s.tick.tables = s.tables := rfl
@[simp] theorem State.tick_stepOf (i : LineIx) (p : Prog) : s.tick.stepOf i p = s.stepOf i p := rfl

/-- A second leaves a filter IN_SERVICE, or not (R117). -/
theorem SeqFilter.tick_inService (x : SeqFilter) :
    x.tick.state = .inService ↔ x.state = .inService := by
  simp only [SeqFilter.tick]
  cases x.state <;> simp [FilterState.tick]

/-- An hour counts while the filter is in service and its circuit flows (R96). -/
@[simp] theorem State.tick_countsHours (f : FilterIx) : s.tick.countsHours f = true ↔
    (s.seq.filters.get f).state = .inService ∧
      s.flowClass (s.tables.filters.get f).circuit ≠ .none := by
  simp [State.countsHours, SeqFilter.tick_inService]

/-- Its second counted, a circuit's long starvation is due under the conditions that the second found (R29). -/
@[simp] theorem State.tick_starvedLongDue (c : CircuitIx) : s.tick.starvedLongDue c = true ↔
    (s.tables.circuits.get c).enabled = true ∧ (s.flowClass c = .low ∨ s.flowClass c = .none) ∧
      (s.flow.circuits.get c).starvedReported = false ∧
      (s.tables.circuits.get c).starvedLimit ≤ (s.tick.flow.circuits.get c).starvedTimer := by
  have hreported : (s.tick.flow.circuits.get c).starvedReported =
      (s.flow.circuits.get c).starvedReported := by
    rw [s.tick_circuit, Circuit.tick]
    split
    · rfl
    · rfl
  rw [State.starvedLongDue_iff, s.tick_flowClass, s.tick_tables, FlowClass.starved_iff, hreported]

/-! ## Exactly the events that have come due -/

theorem State.tick_lineEvents : LineEventsDue s s.tick := by
  intro i
  refine ⟨?_, ?_, ?_, ?_, ?_⟩
  all_goals simp

theorem State.tick_washEvents : WashEventsDue s s.tick := by
  refine ⟨fun f => ⟨?_, ?_, ?_, ?_, ?_, ?_⟩, ?_⟩
  all_goals simp

theorem State.tick_slotEvents (k : SlotIx) :
    (.slotStale k ∈ s.tick.pending ↔ (s.tick.slots.get k).sub = none ∧ s.tick.tooOld k = true) ∧
    (.underlyingStale k ∈ s.tick.pending ↔
      (s.tick.slots.get k).sub ≠ none ∧ s.tick.tooOld k = true) ∧
    (.substituteExpiry k ∈ s.tick.pending ↔ ∃ v, (s.tick.slots.get k).sub = some ⟨v, 0⟩) := by
  refine ⟨?_, ?_, ?_⟩
  all_goals simp

theorem State.tick_otherEvents : OtherEventsDue s s.tick := by
  refine ⟨fun g => ⟨?_, ?_⟩, ?_, fun c => ?_, fun k => ?_, ?_, ?_, ?_, ?_, ?_, ?_⟩
  case refine_5 =>
    obtain ⟨hstale, hunderlying, hexpiry⟩ := s.tick_slotEvents k
    rw [State.tooOld_iff] at hstale hunderlying
    exact ⟨hstale, hunderlying, hexpiry⟩
  all_goals simp [-State.tick_circuit]

end

/-- Settles O2: a second of the timebase moves every counter and brings the events due, each once. -/
theorem emptyQueuePassesOneSecond : Obligations.EmptyQueuePassesOneSecond := by
  intro s hpending
  have hstep : step s = .next s.tick := by
    unfold step
    rw [hpending]
  refine ⟨s.tick, hstep, s.tick_counters, s.tick_lineEvents, s.tick_washEvents, s.tick_otherEvents,
    fun c hc => timedEvents_timed c (s.tick_sublist.subset hc),
    timedEvents_nodup.sublist s.tick_sublist, ?_⟩
  exact ⟨rfl, rfl, rfl, rfl, rfl, rfl, rfl, rfl, rfl, rfl, rfl, rfl, rfl⟩

end Sys2Proof.Machine
end

section
/-!
PROOFS. What the reports of a window end work on: the pumps of the lines, the valves of the filters and the
backwash pump, 21 objects in all. An operation that works on some of them leaves the others, their commands in
the own queues among them (R15, R54, R117), and so a queue with room for 21 frames more has room for all.
-/

namespace Sys2Proof.Machine

open Sys2Proof.Safety Sys2Proof.Claims

/-! ## The objects -/

/-- What the Dose Gate and the Backwash Sequencer command: the pump of a line, the valves of a filter, the
backwash pump. -/
inductive PlantObject
  | line (i : LineIx) | valves (f : FilterIx) | pump

/-- The kind and the index of an object in the admission table (R12). -/
def PlantObject.kind : PlantObject → ObjKind
  | .line _ => .doseLine
  | .valves _ => .filterValves
  | .pump => .backwashPump

def PlantObject.index : PlantObject → Nat
  | .line i => i.val + 1
  | .valves f => f.val + 1
  | .pump => 0

/-- The entry that an object's commands are originated to. -/
def State.entryOf (s : State) (x : PlantObject) : Option (Fin 48) := s.findObject x.kind x.index

@[simp] theorem State.entryOf_line (s : State) (i : LineIx) : s.entryOf (.line i) = s.lineEntry i := rfl
@[simp] theorem State.entryOf_valves (s : State) (f : FilterIx) :
    s.entryOf (.valves f) = s.valveEntry f := rfl
@[simp] theorem State.entryOf_pump (s : State) : s.entryOf .pump = s.pumpEntry := rfl

/-- The 21 objects. -/
def PlantObject.all : List PlantObject :=
  (List.finRange 12).map .line ++ (List.finRange 8).map .valves ++ [.pump]

theorem PlantObject.mem_all (x : PlantObject) : x ∈ PlantObject.all := by
  cases x <;> simp [PlantObject.all]

theorem PlantObject.length_all : PlantObject.all.length = 21 := by decide

/-- Kind and index name the object. -/
theorem PlantObject.eq_of_kind_index {x y : PlantObject} (hkind : x.kind = y.kind)
    (hindex : x.index = y.index) : x = y := by
  match x, y, hkind with
  | .line _, .line _, _ => exact congrArg PlantObject.line (Fin.ext (Nat.succ.inj hindex))
  | .valves _, .valves _, _ => exact congrArg PlantObject.valves (Fin.ext (Nat.succ.inj hindex))
  | .pump, .pump, _ => rfl

theorem PlantObject.line_ne {i j : LineIx} (h : j ≠ i) : PlantObject.line i ≠ .line j := fun e => by
  injection e with e
  exact h e.symm

theorem State.entryOf_some {s : State} {x : PlantObject} {e : Fin 48} (h : s.entryOf x = some e) :
    (s.tables.admission.get e).enabled = true ∧ (s.tables.admission.get e).object = x.kind ∧
      (s.tables.admission.get e).objectIndex = x.index := by
  have := List.find?_some h
  simpa only [Bool.and_eq_true, beq_iff_eq, and_assoc] using this

/-- The key of command `d` is the key that object `x` is commanded by. -/
def Commands (s : State) (x : PlantObject) (d : Cmd) : Prop :=
  ∃ e, s.entryOf x = some e ∧ OneKey d (commandTo s e 0)

/-- Objects that a key commands are one, with the keys of R13 unique. -/
theorem Commands.unique {s : State} (h : TablesOk s.tables) {x y : PlantObject} {d : Cmd}
    (hx : Commands s x d) (hy : Commands s y d) : x = y := by
  obtain ⟨e, he, hed⟩ := hx
  obtain ⟨k, hk, hkd⟩ := hy
  obtain ⟨eenabled, eobject, eindex⟩ := State.entryOf_some he
  obtain ⟨kenabled, kobject, kindex⟩ := State.entryOf_some hk
  have hek : e = k := h.1 e k eenabled kenabled (hed.1.symm.trans hkd.1) (hed.2.symm.trans hkd.2)
  subst hek
  exact PlantObject.eq_of_kind_index (eobject.symm.trans kobject) (eindex.symm.trans kindex)

theorem State.entryOf_congr {s t : State} (h : t.tables = s.tables) (x : PlantObject) :
    t.entryOf x = s.entryOf x := by
  simp only [State.entryOf, State.findObject, h]

theorem commandTo_congr {s t : State} (h : t.tables = s.tables) (e : Fin 48) (v : Nat) :
    commandTo t e v = commandTo s e v := by
  simp only [commandTo, h]

theorem State.segOfEntry_congr {s t : State} (h : t.tables = s.tables) (k : Option (Fin 48)) :
    t.segOfEntry k = s.segOfEntry k := by
  simp only [State.segOfEntry, State.segOf, h]

theorem Commands.congr {s t : State} (h : t.tables = s.tables) {x : PlantObject} {d : Cmd} :
    Commands t x d ↔ Commands s x d := by
  simp only [Commands, State.entryOf_congr h, commandTo_congr h]

/-! ## Working on some of the objects -/

/-- From `s` to `t` the Dose Gate, the Sequencer and the Arbiter have worked on the objects `K` at most. -/
structure Works (K : PlantObject → Prop) (s t : State) : Prop where
  same : t.offWash = s.offWash
  queues : QueuesOk s → QueuesOk t
  line : ∀ i, ¬ K (.line i) → t.gate.get i = s.gate.get i
  disabled : ∀ i, (s.gate.get i).state = .disabled → t.gate.get i = s.gate.get i
  permit : ∀ i, ¬ K (.line i) → s.pins.permits.get i = s.permitDue i →
    t.pins.permits.get i = t.permitDue i
  filter : ∀ f, ¬ K (.valves f) → t.seq.filters.get f = s.seq.filters.get f
  pump : ¬ K .pump → t.pins.pb = s.pins.pb ∧ t.seq.pumpRun = s.seq.pumpRun
  raised : ∀ n, Raised s n → Raised t n
  kept : ∀ (g : SegIx) (n : Nat) (d : Cmd), (s.ports.segments.get g).own[n]? = some d →
    ∃ v, (t.ports.segments.get g).own[n]? = some { d with value := v } ∧
      (v = d.value ∨ ∃ x, K x ∧ Commands s x d)
  keys : ∀ (g : SegIx) (d : Cmd), d ∈ (t.ports.segments.get g).own →
    (∃ c ∈ (s.ports.segments.get g).own, OneKey c d) ∨ ∃ x, K x ∧ Commands s x d

namespace Works

section
variable {K : PlantObject → Prop} {s t : State} (h : Works K s t)
include h

theorem tables : t.tables = s.tables := congrArg (·.tables) h.same
theorem flow : t.flow = s.flow := congrArg (·.flow) h.same
theorem slots : t.slots = s.slots := congrArg (·.slots) h.same
theorem plantStop : t.pins.plantStop = s.pins.plantStop := congrArg (·.pins.plantStop) h.same
theorem modeNow : t.modeNow = s.modeNow := congrArg (·.mode.state.mode) h.same
theorem flowClass (c : CircuitIx) : t.flowClass c = s.flowClass c := by
  simp only [State.flowClass, h.flow]
theorem reading (k : SlotIx) : t.reading k = s.reading k := by simp only [State.reading, h.slots]
theorem segState (g : SegIx) : t.segState g = s.segState g := by
  have hseg : { t.ports.segments.get g with own := [] } =
      { s.ports.segments.get g with own := [] } := by
    simpa [State.offWash, State.offGate] using congrArg (·.ports.segments.get g) h.same
  exact congrArg (·.state) hseg
theorem backwashOf (f : FilterIx) (hf : ¬ K (.valves f)) : t.backwashOf f = s.backwashOf f := by
  rw [State.backwashOf, h.filter f hf, State.backwashOf]

end

theorem mono {K L : PlantObject → Prop} {s t : State} (h : Works K s t) (hk : ∀ x, K x → L x) :
    Works L s t where
  same := h.same
  queues := h.queues
  line i hi := h.line i (mt (hk _) hi)
  disabled := h.disabled
  permit i hi := h.permit i (mt (hk _) hi)
  filter f hf := h.filter f (mt (hk _) hf)
  pump hp := h.pump (mt (hk _) hp)
  raised := h.raised
  kept g n d hd := by
    obtain ⟨v, hv, hd'⟩ := h.kept g n d hd
    exact ⟨v, hv, hd'.imp id fun ⟨x, hx, hc⟩ => ⟨x, hk x hx, hc⟩⟩
  keys g d hd := (h.keys g d hd).imp id fun ⟨x, hx, hc⟩ => ⟨x, hk x hx, hc⟩

theorem trans {K : PlantObject → Prop} {s t u : State} (h : Works K s t) (k : Works K t u) :
    Works K s u where
  same := k.same.trans h.same
  queues := k.queues ∘ h.queues
  line i hi := (k.line i hi).trans (h.line i hi)
  disabled i hi := (k.disabled i (by rw [h.disabled i hi, hi])).trans (h.disabled i hi)
  permit i hi := k.permit i hi ∘ h.permit i hi
  filter f hf := (k.filter f hf).trans (h.filter f hf)
  pump hp := ⟨(k.pump hp).1.trans (h.pump hp).1, (k.pump hp).2.trans (h.pump hp).2⟩
  raised n := k.raised n ∘ h.raised n
  kept g n d hd := by
    obtain ⟨v, hv, hd'⟩ := h.kept g n d hd
    obtain ⟨w, hw, hd''⟩ := k.kept g n _ hv
    refine ⟨w, hw, ?_⟩
    rcases hd'' with rfl | ⟨x, hx, hc⟩
    · exact hd'
    · exact .inr ⟨x, hx, (Commands.congr h.tables).1 hc⟩
  keys g d hd := by
    rcases k.keys g d hd with ⟨c, hc, hcd⟩ | ⟨x, hx, hc⟩
    · rcases h.keys g c hc with ⟨b, hb, hbc⟩ | ⟨x, hx, e, he, hce⟩
      · exact .inl ⟨b, hb, hbc.1.trans hcd.1, hbc.2.trans hcd.2⟩
      · exact .inr ⟨x, hx, e, he, hcd.1.symm.trans hce.1, hcd.2.symm.trans hce.2⟩
    · exact .inr ⟨x, hx, (Commands.congr h.tables).1 hc⟩

/-- An operation that leaves the ports, the lines, the filters and the pump, and sets the permits, if any, from
their conditions. -/
theorem of_ports {K : PlantObject → Prop} {s t : State} (hsame : t.offWash = s.offWash)
    (hline : ∀ i, ¬ K (.line i) → t.gate.get i = s.gate.get i)
    (hdisabled : ∀ i, (s.gate.get i).state = .disabled → t.gate.get i = s.gate.get i)
    (hpermit : ∀ i, ¬ K (.line i) → s.pins.permits.get i = s.permitDue i →
      t.pins.permits.get i = t.permitDue i)
    (hfilter : ∀ f, ¬ K (.valves f) → t.seq.filters.get f = s.seq.filters.get f)
    (hpump : ¬ K .pump → t.pins.pb = s.pins.pb ∧ t.seq.pumpRun = s.seq.pumpRun)
    (hports : t.ports = s.ports := by rfl) (hmgmt : t.mgmt = s.mgmt := by rfl) : Works K s t where
  same := hsame
  queues q := by simpa only [QueuesOk, State.placesTaken, hports, hmgmt] using q
  line := hline
  disabled := hdisabled
  permit := hpermit
  filter := hfilter
  pump := hpump
  raised n hn := by rwa [Raised, hports, hmgmt]
  kept g n d hd := ⟨d.value, by rw [hports]; exact hd, .inl rfl⟩
  keys g d hd := .inl ⟨d, by rwa [hports] at hd, rfl, rfl⟩

theorem refl (K : PlantObject → Prop) (s : State) : Works K s s :=
  .of_ports rfl (fun _ _ => rfl) (fun _ _ => rfl) (fun _ _ => id) (fun _ _ => rfl)
    (fun _ => ⟨rfl, rfl⟩)

/-- A fold of operations that work on the objects `K`, whatever the state with these tables. -/
theorem foldl {α : Type} {K : PlantObject → Prop} {f : State → α → State} (l : List α) (s : State)
    (h : ∀ t : State, t.tables = s.tables → ∀ a ∈ l, Works K t (f t a)) : Works K s (l.foldl f s) := by
  induction l generalizing s with
  | nil => exact refl K s
  | cons a l ih =>
    have ha := h s rfl a List.mem_cons_self
    exact ha.trans (ih _ fun t ht b hb => h t (ht.trans ha.tables) b (List.mem_cons_of_mem _ hb))

end Works

/-! ## Notices and commands -/

/-- A notice raised stays raised (R17). -/
theorem State.notify_keeps_raised {s : State} {n : Notice} (h : Raised s n) (m : Notice) :
    Raised (s.notify m) n := by
  unfold State.notify
  split
  · rename_i hl
    refine .inl ?_
    rcases h with h | ⟨h, -⟩
    · exact List.mem_append_left _ h
    · exact absurd hl (not_lt.2 h)
  · exact h.imp id fun ⟨hl, _⟩ => ⟨hl, rfl⟩

theorem State.notify_raised (s : State) (n : Notice) : Raised (s.notify n) n := by
  unfold State.notify
  split
  · exact .inl (List.mem_append_right _ (List.mem_singleton.2 rfl))
  · rename_i hl
    exact .inr ⟨not_lt.1 hl, rfl⟩

theorem GateFrame.offWash {s t : State} (h : GateFrame s t) : t.offWash = s.offWash := by
  simp only [State.offWash, h.same, h.seq, h.mode]

/-- An operation of the Dose Gate on the lines of `K`. -/
theorem Works.of_gate {K : PlantObject → Prop} {s t : State} (h : GateFrame s t)
    (hline : ∀ i, ¬ K (.line i) → t.gate.get i = s.gate.get i)
    (hdisabled : ∀ i, (s.gate.get i).state = .disabled → t.gate.get i = s.gate.get i)
    (hpermit : ∀ i, ¬ K (.line i) → s.pins.permits.get i = s.permitDue i →
      t.pins.permits.get i = t.permitDue i)
    (hraised : ∀ n, Raised s n → Raised t n)
    (hkept : ∀ (g : SegIx) (n : Nat) (d : Cmd), (s.ports.segments.get g).own[n]? = some d →
      ∃ v, (t.ports.segments.get g).own[n]? = some { d with value := v } ∧
        (v = d.value ∨ ∃ x, K x ∧ Commands s x d))
    (hkeys : ∀ (g : SegIx) (d : Cmd), d ∈ (t.ports.segments.get g).own →
      (∃ c ∈ (s.ports.segments.get g).own, OneKey c d) ∨ ∃ x, K x ∧ Commands s x d) : Works K s t where
  same := h.offWash
  queues := h.queues
  line := hline
  disabled := hdisabled
  permit := hpermit
  filter f _ := by rw [h.seq]
  pump _ := ⟨h.pb, by rw [h.seq]⟩
  raised := hraised
  kept := hkept
  keys := hkeys

theorem State.notify_works (K : PlantObject → Prop) (s : State) (n : Notice) :
    Works K s (s.notify n) := by
  have hown : (s.notify n).ports.segments = s.ports.segments := by simp only [State.notify_fields]
  have q := s.notify_quiet n
  refine .of_gate q.frame (fun i _ => by rw [q.gate]) (fun i _ => by rw [q.gate]) (fun i _ hi => ?_)
    (fun _ hm => State.notify_keeps_raised hm n) (fun g k d hd => ⟨d.value, by rw [hown]; exact hd, .inl rfl⟩)
    (fun g d hd => .inl ⟨d, by rwa [hown] at hd, rfl, rfl⟩)
  rw [q.permits, hi, q.frame.permitDue (by rw [q.gate])]

/-- What the table of R15 keeps of a queue: each frame at its place. -/
theorem ownAfter_kept (x : Segment) (c : Cmd) (n : Nat) (d : Cmd) (h : x.own[n]? = some d) :
    ∃ v, (ownAfter x c)[n]? = some { d with value := v } ∧ (v = d.value ∨ OneKey d c) := by
  unfold ownAfter
  split
  · exact ⟨d.value, h, .inl rfl⟩
  split
  · rw [List.getElem?_map, h, Option.map_some]
    by_cases hk : OneKey d c
    · refine ⟨c.value, ?_, .inr hk⟩
      obtain ⟨hstation, hchannel⟩ := hk
      simp only [OneKey, hstation, hchannel, and_self, if_true]
    · exact ⟨d.value, by rw [if_neg hk], .inl rfl⟩
  split
  · refine ⟨d.value, ?_, .inl rfl⟩
    rw [List.getElem?_append_left (List.getElem?_eq_some_iff.1 h).1]
    exact h
  · exact ⟨d.value, h, .inl rfl⟩

/-- It brings no other key than the command's. -/
theorem ownAfter_keys (x : Segment) (c d : Cmd) (h : d ∈ ownAfter x c) :
    (∃ b ∈ x.own, OneKey b d) ∨ OneKey d c := by
  unfold ownAfter at h
  split at h
  · exact .inl ⟨d, h, rfl, rfl⟩
  split at h
  · obtain ⟨b, hb, rfl⟩ := List.mem_map.1 h
    by_cases hk : OneKey b c
    · rw [if_pos hk]; exact .inr ⟨rfl, rfl⟩
    · rw [if_neg hk]; exact .inl ⟨b, hb, rfl, rfl⟩
  split at h
  · rcases List.mem_append.1 h with h | h
    · exact .inl ⟨d, h, rfl, rfl⟩
    · rw [List.mem_singleton.1 h]; exact .inr ⟨rfl, rfl⟩
  · exact .inl ⟨d, h, rfl, rfl⟩

/-- Originating a command to an object's entry works on that object's command alone (R15). -/
theorem State.originate_works {K : PlantObject → Prop} {x : PlantObject} (s : State)
    (k : Option (Fin 48)) (v : Nat) (hk : k = s.entryOf x) (hx : K x) :
    Works K s (s.originate k v) := by
  have q := s.originate_quiet k v
  have hown := s.originate_own k v
  have hports : (s.originate k v).ports.notices = s.ports.notices ∧
      (s.originate k v).mgmt = s.mgmt := by
    unfold State.originate
    split
    · exact ⟨rfl, rfl⟩
    · dsimp only
      split <;> exact ⟨rfl, rfl⟩
  refine .of_gate q.frame (fun i _ => by rw [q.gate]) (fun i _ => by rw [q.gate]) (fun i _ hi => ?_)
    (fun m hm => ?_) (fun g n d hd => ?_) (fun g d hd => ?_)
  · rw [q.permits, hi, q.frame.permitDue (by rw [q.gate])]
  · rwa [Raised, hports.1, hports.2]
  · rw [hown g]
    cases k with
    | none => exact ⟨d.value, hd, .inl rfl⟩
    | some e =>
      dsimp only
      split
      · obtain ⟨w, hw, hd'⟩ := ownAfter_kept _ (commandTo s e v) n d hd
        exact ⟨w, hw, hd'.imp id fun h => ⟨x, hx, e, hk.symm, h⟩⟩
      · exact ⟨d.value, hd, .inl rfl⟩
  · rw [hown g] at hd
    cases k with
    | none => exact .inl ⟨d, hd, rfl, rfl⟩
    | some e =>
      dsimp only at hd
      split at hd
      · exact (ownAfter_keys _ _ d hd).imp id fun h => ⟨x, hx, e, hk.symm, h⟩
      · exact .inl ⟨d, hd, rfl, rfl⟩

/-! ## The command that waits -/

/-- The keys of a queue in order. -/
def keysOf (l : List Cmd) : List (Nat × Nat) := l.map fun d => (d.station, d.channel)

theorem keysOf_nodup {l : List Cmd} (h : l.Pairwise fun a b => a.sameKey b = false) :
    (keysOf l).Nodup := by
  refine List.pairwise_map.2 (h.imp fun {a b} hab e => ?_)
  have hkey : a.sameKey b = true := (Cmd.sameKey_iff a b).2
    ⟨(congrArg Prod.fst e).symm, (congrArg Prod.snd e).symm⟩
  rw [hab] at hkey
  cases hkey

theorem mem_keysOf {l : List Cmd} {c : Cmd} :
    (c.station, c.channel) ∈ keysOf l ↔ ∃ d ∈ l, OneKey d c := by
  simp only [keysOf, List.mem_map, Prod.mk.injEq, OneKey]

/-- The keys that the objects are commanded by. -/
def State.objectKeys (s : State) : List (Nat × Nat) :=
  PlantObject.all.map fun x => ((s.entryOf x).map fun e =>
    ((commandTo s e 0).station, (commandTo s e 0).channel)).getD (0, 0)

/-- What is worked on from a queue with at most 3 frames leaves room for one frame of a key more. -/
theorem Works.room {K : PlantObject → Prop} {s t : State} (h : Works K s t) (q : QueuesOk s) {g : SegIx}
    {x : PlantObject} {e : Fin 48} (hx : s.entryOf x = some e)
    (hroom : (s.ports.segments.get g).own.length + 21 ≤ 24)
    (hnew : ∀ d ∈ (t.ports.segments.get g).own, ¬ OneKey d (commandTo s e 0)) :
    (t.ports.segments.get g).own.length < 24 := by
  obtain ⟨-, -, -, hports⟩ := h.queues q
  obtain ⟨-, -, hpairwise, -⟩ := hports g
  have hobject : ∀ y k, s.entryOf y = some k →
      ((commandTo s k 0).station, (commandTo s k 0).channel) ∈ s.objectKeys := fun y k hk =>
    List.mem_map.2 ⟨y, y.mem_all, by rw [hk]; rfl⟩
  have hnodup : (((commandTo s e 0).station, (commandTo s e 0).channel) ::
      keysOf (t.ports.segments.get g).own).Nodup :=
    List.nodup_cons.2 ⟨fun hc => by
      obtain ⟨d, hd, hk⟩ := mem_keysOf.1 hc
      exact hnew d hd hk, keysOf_nodup hpairwise⟩
  have hsub : (((commandTo s e 0).station, (commandTo s e 0).channel) ::
      keysOf (t.ports.segments.get g).own) ⊆ keysOf (s.ports.segments.get g).own ++ s.objectKeys := by
    intro k hk
    rcases List.mem_cons.1 hk with rfl | hk
    · exact List.mem_append_right _ (hobject x e hx)
    · obtain ⟨d, hd, rfl⟩ := List.mem_map.1 hk
      rcases h.keys g d hd with ⟨c, hc, hcd⟩ | ⟨y, -, k, hy, hdk⟩
      · exact List.mem_append_left _ (mem_keysOf.2 ⟨c, hc, hcd⟩)
      · refine List.mem_append_right _ ?_
        rw [hdk.1, hdk.2]
        exact hobject y k hy
  have hlength := (hnodup.subperm hsub).length_le
  simp only [List.length_cons, List.length_append, keysOf, State.objectKeys, List.length_map,
    PlantObject.length_all] at hlength
  omega

/-- A command originated to an object's entry after any work waits in the object's queue (R15). -/
theorem Works.offers {K : PlantObject → Prop} {s t : State} (h : Works K s t) (x : PlantObject) (v : Nat) :
    Offers s (t.originate (t.entryOf x) v) (s.entryOf x) v 21 := by
  intro hT q e g he hseg hup before after c
  have hown : after = ownAfter (t.ports.segments.get g) c := by
    have := t.originate_own (t.entryOf x) v g
    rw [State.entryOf_congr h.tables, he] at this
    dsimp only at this
    rw [State.segOfEntry_congr h.tables, if_pos (he ▸ hseg), commandTo_congr h.tables] at this
    rw [← this]
    simp only [after, State.entryOf_congr h.tables, he]
  have hstate : ¬ ((t.ports.segments.get g).state ≠ .up ∧ (t.ports.segments.get g).state ≠ .lost) := by
    rw [(State.originate_gate t _ v).segState g] at hup
    rcases hup with hup | hup
    · exact fun hn => hn.1 hup
    · exact fun hn => hn.2 hup
  unfold ownAfter at hown
  rw [if_neg hstate] at hown
  have hthere : ∀ (n : Nat) (d : Cmd), (t.ports.segments.get g).own[n]? = some d → OneKey d c →
      after[n]? = some c := by
    intro n d hd hk
    rw [hown, if_pos ⟨d, List.mem_of_getElem? hd, hk⟩, List.getElem?_map, hd, Option.map_some, if_pos hk]
  have hkept : ∀ (n : Nat) (d : Cmd), before[n]? = some d →
      ∃ d', (t.ports.segments.get g).own[n]? = some d' ∧ OneKey d' d := by
    intro n d hd
    obtain ⟨w, hw, -⟩ := h.kept g n d hd
    exact ⟨_, hw, rfl, rfl⟩
  refine ⟨fun n d hd hk => ?_, fun hnew hroom => ?_⟩
  · obtain ⟨d', hd', hk'⟩ := hkept n d hd
    exact hthere n d' hd' ⟨hk'.1.trans hk.1, hk'.2.trans hk.2⟩
  by_cases hwaits : ∃ d ∈ (t.ports.segments.get g).own, OneKey d c
  · obtain ⟨d, hd, hk⟩ := hwaits
    obtain ⟨n, hn⟩ := List.getElem?_of_mem hd
    refine ⟨n, ?_, hthere n d hn hk⟩
    by_contra hlt
    obtain ⟨b, hb⟩ : ∃ b, before[n]? = some b := ⟨_, List.getElem?_eq_getElem (not_le.1 hlt)⟩
    obtain ⟨d', hd', hk'⟩ := hkept n b hb
    rw [hn] at hd'
    obtain rfl := Option.some.inj hd'
    exact hnew b (List.mem_of_getElem? hb) ⟨hk'.1.symm.trans hk.1, hk'.2.symm.trans hk.2⟩
  · have hlt := h.room q he hroom fun d hd hk => hwaits ⟨d, hd, hk⟩
    refine ⟨(t.ports.segments.get g).own.length, ?_, ?_⟩
    · by_contra hlt'
      obtain ⟨b, hb⟩ : ∃ b, before[(t.ports.segments.get g).own.length]? = some b :=
        ⟨_, List.getElem?_eq_getElem (not_le.1 hlt')⟩
      obtain ⟨d', hd', -⟩ := hkept _ b hb
      rw [List.getElem?_eq_none le_rfl] at hd'
      cases hd'
    · rw [hown, if_neg hwaits, if_pos hlt, List.getElem?_concat_length]

/-- It waits on while other objects are worked on. -/
theorem Works.offers_later {K : PlantObject → Prop} {s t u : State} {x : PlantObject} {v room : Nat}
    (ht : t.tables = s.tables) (ho : Offers s t (s.entryOf x) v room) (h : Works K t u) (hx : ¬ K x) :
    Offers s u (s.entryOf x) v room := by
  intro hT q e g he hseg hup before after c
  have hstays : ∀ n : Nat, (t.ports.segments.get g).own[n]? = some c → after[n]? = some c := by
    intro n hn
    obtain ⟨w, hw, hv⟩ := h.kept g n c hn
    have hsame : w = c.value := hv.resolve_right fun ⟨y, hy, hc⟩ => by
      have hxy : x = y := Commands.unique hT ⟨e, he, rfl, rfl⟩ ((Commands.congr ht).1 hc)
      exact hx (hxy ▸ hy)
    rw [hw, hsame]
  rw [h.segState g] at hup
  obtain ⟨hplace, htail⟩ := ho hT q e g he hseg hup
  refine ⟨fun n d hd hk => hstays n (hplace n d hd hk), fun hnew hroom => ?_⟩
  obtain ⟨n, hn, hc⟩ := htail hnew hroom
  exact ⟨n, hn, hstays n hc⟩

end Sys2Proof.Machine
end

section
/-!
PROOFS. The objects that each operation of the window end works on: a change of causes on its line, a report to
the Dose Gate on the lines it names, an abort and a grant on the filter's valves, the backwash pump and the COAG
lines of the filter's circuit.
-/

namespace Sys2Proof.Machine

open Sys2Proof.Safety Sys2Proof.Claims

/-! ## One line -/

section
variable {K : PlantObject → Prop} {i : LineIx} (hi : K (.line i)) (s : State)
include hi

theorem State.putLine_works (l : Line) (h : (s.gate.get i).state ≠ .disabled) :
    Works K s (s.putLine i l) := by
  have q := s.putLine_line i l
  have hne : ∀ j, ¬ K (.line j) → j ≠ i := fun j hj e => hj (e ▸ hi)
  refine .of_ports q.frame.offWash (fun j hj => q.others j (hne j hj)) (fun j hj => ?_)
    (fun j hj hp => ?_) (fun _ _ => rfl) (fun _ => ⟨rfl, rfl⟩)
  · exact q.others j fun e => h (e ▸ hj)
  · rw [q.permits j (hne j hj), hp, q.frame.permitDue (q.others j (hne j hj))]

omit hi in
theorem State.endProgramme_works (c : Cause) : Works K s (s.endProgramme i c) := by
  unfold State.endProgramme
  split
  · exact .refl K s
  · refine Works.trans (t := s.putProg i none) ?_ (State.notify_works K _ _)
    exact .of_ports rfl (fun _ _ => rfl) (fun _ _ => rfl) (fun _ _ => id) (fun _ _ => rfl)
      fun _ => ⟨rfl, rfl⟩

theorem State.excludeDrop_works (h : (s.gate.get i).state ≠ .disabled) :
    Works K s (s.excludeDrop i) :=
  ((s.putLine_works hi _ h).trans (State.notify_works K _ _)).trans (State.endProgramme_works _ _)

theorem State.recompute_works (w : For) (h : (s.gate.get i).state ≠ .disabled) :
    Works K s (s.recompute w i) := by
  unfold State.recompute
  extract_lets l r t u
  split
  · exact s.excludeDrop_works hi h
  split
  · exact s.putLine_works hi _ h
  have ht : Works K s t :=
    (s.putLine_works hi _ h).trans (State.putLine_works hi _ _ (by simpa using h))
  have hu : Works K s u := by
    unfold u
    split
    · exact ht
    · exact ht.trans (t.originate_works (x := .line i) _ _ rfl hi)
  split
  · exact hu.trans (u.notify_works K _)
  · exact hu

theorem State.resumeExpired_works (h : (s.gate.get i).state ≠ .disabled) :
    Works K s (s.resumeExpired i) := by
  unfold State.resumeExpired
  extract_lets l
  split
  · exact s.excludeDrop_works hi h
  split
  · exact s.putLine_works hi _ h
  · exact (s.putLine_works hi _ h).trans (State.recompute_works hi _ _ (by simp))

omit hi in
/-- A line that is not DISABLED stays so whatever causes it is told of (R61, R62). -/
theorem Line.nextState_ne_disabled {l : Line} (h : l.state ≠ .disabled) (new : Causes) (n : Nat) :
    l.nextState new n ≠ .disabled := by
  unfold Line.nextState
  cases hl : l.state with
  | disabled => exact absurd hl h
  | faulted => nofun
  | inhibited => dsimp only; split_ifs <;> nofun
  | stopped => dsimp only; split_ifs <;> nofun
  | dosing => dsimp only; split_ifs <;> nofun
  | resuming => dsimp only; split_ifs <;> nofun

/-- A change of a line's causes works on the line. -/
theorem State.applyCauses_works (new : Causes) : Works K s (s.applyCauses i new) := by
  unfold State.applyCauses
  extract_lets l cleared requested next resumes delay t u
  split
  · exact .refl K s
  rename_i h
  have hnext : next ≠ .disabled := Line.nextState_ne_disabled h new requested
  have ht : Works K s t := s.putLine_works hi _ h
  have hu : Works K s u ∧ (u.gate.get i).state ≠ .disabled := by
    have hstate : (t.gate.get i).state ≠ .disabled := by simpa [t] using hnext
    unfold u
    split
    · exact ⟨ht.trans (t.endProgramme_works _), by rwa [(t.endProgramme_quiet i _).gate]⟩
    · exact ⟨ht, hstate⟩
  split
  · exact hu.1.trans (u.resumeExpired_works hi hu.2)
  · exact hu.1.trans (u.recompute_works hi _ hu.2)

end

/-! ## Reports to the Dose Gate -/

/-- Changing the causes of the lines that `p` holds of works on these lines. -/
theorem State.linesWhere_works {K : PlantObject → Prop} (p : State → LineIx → Prop)
    [∀ s i, Decidable (p s i)] (c : State → LineIx → Causes) (l : List LineIx) (s : State)
    (h : ∀ t : State, t.tables = s.tables → ∀ i ∈ l, p t i → K (.line i)) :
    Works K s (l.foldl (fun s i => if p s i then s.applyCauses i (c s i) else s) s) :=
  Works.foldl l s fun t ht i hi => by
    split
    · exact t.applyCauses_works (h t ht i hi (by assumption)) _
    · exact .refl K t

/-- Setting the permits from their conditions works on no object. -/
theorem State.refreshPermits_works (K : PlantObject → Prop) (s : State) : Works K s s.refreshPermits :=
  .of_ports s.refreshPermits_gate.offWash (fun _ _ => rfl) (fun _ _ => rfl)
    (fun i _ _ => by simp [State.permitDue, State.flowClass, State.modeNow]) (fun _ _ => rfl)
    fun _ => ⟨rfl, rfl⟩

/-- The lines of circuit `c`. -/
def linesOf (T : Tables) (c : CircuitIx) : PlantObject → Prop
  | .line i => (T.lines.get i).circuit = c
  | .valves _ | .pump => False

/-- The COAG lines of circuit `c`. -/
def coagOf (T : Tables) (c : CircuitIx) : PlantObject → Prop
  | .line i => (T.lines.get i).kind = .coag ∧ (T.lines.get i).circuit = c
  | .valves _ | .pump => False

theorem State.gateFlow_works (s : State) (c : CircuitIx) :
    Works (linesOf s.tables c) s (s.gateFlow c) := by
  refine (s.refreshPermits_works _).trans (State.linesWhere_works _ _ _ _ fun t ht i _ hc => ?_)
  rw [ht] at hc
  exact hc

theorem State.gateBackwash_works (s : State) (c : CircuitIx) :
    Works (coagOf s.tables c) s (s.gateBackwash c) := by
  refine State.linesWhere_works _ _ _ _ fun t ht i _ hc => ?_
  rw [ht] at hc
  exact hc

/-! ## The Sequencer -/

section
variable {K : PlantObject → Prop} {f : FilterIx} (hf : K (.valves f)) (s : State)
include hf

theorem State.updFilter_works (h : SeqFilter → SeqFilter) : Works K s (s.updFilter f h) := by
  refine .of_ports (s.updFilter_wash f h).same (fun _ _ => rfl) (fun _ _ => rfl) (fun _ _ => id)
    (fun g hg => ?_) fun _ => ⟨rfl, rfl⟩
  simp only [State.updFilter_fields]
  exact Table.get_upd_ne _ _ fun e => hg (e ▸ hf)

theorem State.unrinsedNotice_works (c : Cause) (g : Stage) :
    Works K s (s.unrinsedNotice f c g) :=
  (s.updFilter_works hf _).trans (State.notify_works K _ _)

variable (hcoag : ∀ x, coagOf s.tables (s.tables.filters.get f).circuit x → K x)
include hcoag

theorem State.beginMove_works (b : Backwash) (v : Nat) : Works K s (s.beginMove f b .valves v) := by
  unfold State.beginMove
  extract_lets t
  have ht : Works K s t := s.updFilter_works hf _
  have hu := ht.trans (t.originate_works (x := .valves f) (t.valveEntry f) v rfl hf)
  exact hu.trans ((State.gateBackwash_works _ _).mono (by rw [hu.tables]; exact hcoag))

theorem State.enterStage_works (b : Backwash) (g : Stage) : Works K s (s.enterStage f b g) := by
  unfold State.enterStage
  extract_lets b' t
  have ht : Works K s t := by
    unfold t
    split
    · exact s.unrinsedNotice_works hf _ _
    · exact .refl K s
  exact ht.trans (t.beginMove_works hf (by rw [ht.tables]; exact hcoag) _ _)

omit hf hcoag in
/-- The pump stops (R125). -/
theorem State.stopPump_works (hp : K .pump) (v : Nat) :
    Works K s (((s.setPb false).setPump false).originate
      ((s.setPb false).setPump false).pumpEntry v) :=
  have h : Works K s ((s.setPb false).setPump false) :=
    .of_ports ((s.setPb_wash _).trans (State.setPump_wash _ _)).same (fun _ _ => rfl)
      (fun _ _ => rfl) (fun _ _ => id) (fun _ _ => rfl) fun h => absurd hp h
  h.trans (State.originate_works (x := .pump) _ _ _ rfl hp)

theorem State.abort_works (hp : K .pump) (c : AbortCause) : Works K s (s.abort f c) := by
  unfold State.abort
  split
  · exact .refl K s
  extract_lets u t
  split
  · exact .refl K s
  have ht : Works K s t := by
    unfold t
    split
    · exact s.stopPump_works hp 0
    · exact .refl K s
  have hstage : ∀ b g, Works K s (t.enterStage f b g) := fun b g =>
    ht.trans (t.enterStage_works hf (by rw [ht.tables]; exact hcoag) b g)
  split
  · exact hstage _ _
  split
  · exact hstage _ _
  · exact ht

end

/-- The objects of circuit `c`, and the backwash pump. -/
def objectsOf (T : Tables) (c : CircuitIx) : PlantObject → Prop
  | .line i => (T.lines.get i).circuit = c
  | .valves f => (T.filters.get f).circuit = c
  | .pump => True

theorem objectsOf_of_lines {T : Tables} {c : CircuitIx} {x : PlantObject} (h : linesOf T c x) :
    objectsOf T c x := by
  cases x with
  | line i => exact h
  | valves f => exact h.elim
  | pump => exact h.elim

/-- The objects that the Sequencer works on when a class of circuit `c` is reported: of the lines the COAG
lines only. -/
def washOf (T : Tables) (c : CircuitIx) : PlantObject → Prop
  | .line i => (T.lines.get i).kind = .coag ∧ (T.lines.get i).circuit = c
  | .valves f => (T.filters.get f).circuit = c
  | .pump => True

theorem washOf_of_coag {T : Tables} {c : CircuitIx} {x : PlantObject} (h : coagOf T c x) :
    washOf T c x := by
  cases x with
  | line i => exact h
  | valves f => exact h.elim
  | pump => exact h.elim

theorem objectsOf_of_wash {T : Tables} {c : CircuitIx} {x : PlantObject} (h : washOf T c x) :
    objectsOf T c x := by
  cases x with
  | line i => exact h.2
  | valves f => exact h
  | pump => exact h

theorem State.seqFlow_works (s : State) (c : CircuitIx) : Works (washOf s.tables c) s (s.seqFlow c) := by
  unfold State.seqFlow State.forFilters
  split
  · refine Works.foldl _ s fun t ht f _ => ?_
    split
    · rename_i hc
      rw [ht] at hc
      refine t.abort_works (K := washOf s.tables c) hc (fun x hx => washOf_of_coag ?_) trivial _
      rwa [ht, hc] at hx
    · exact .refl _ t
  · exact .refl _ s

/-- A report of a class works on the objects of its circuit and on the backwash pump (R27). -/
theorem State.reportClass_works (s : State) (c : CircuitIx) :
    Works (objectsOf s.tables c) s (s.reportClass c) := by
  have hgate := (s.gateFlow_works c).mono fun _ => objectsOf_of_lines
  refine hgate.trans (((s.gateFlow c).seqFlow_works c).mono fun x hx => ?_)
  rw [hgate.tables] at hx
  exact objectsOf_of_wash hx

/-! ## The Arbiter -/

/-- The objects that a grant of a filter of circuit `c` works on. -/
def grantOf (T : Tables) (f : FilterIx) : PlantObject → Prop
  | .line i => (T.lines.get i).kind = .coag ∧ (T.lines.get i).circuit = (T.filters.get f).circuit
  | .valves g => g = f
  | .pump => False

theorem grantOf_of_coag {T : Tables} {f : FilterIx} {x : PlantObject}
    (h : coagOf T (T.filters.get f).circuit x) : grantOf T f x := by
  cases x with
  | line i => exact h
  | valves g => exact h.elim
  | pump => exact h.elim

/-- A change of the Arbiter's fields works on no object. -/
theorem Works.of_arbiter (K : PlantObject → Prop) {s t : State}
    (h : t = { s with arbiter := t.arbiter }) : Works K s t := by
  rw [h]
  exact .of_ports rfl (fun _ _ => rfl) (fun _ _ => rfl) (fun _ _ => id) (fun _ _ => rfl)
    fun _ => ⟨rfl, rfl⟩

theorem State.grant_works (s : State) (f : FilterIx) : Works (grantOf s.tables f) s (s.grant f) := by
  unfold State.grant
  extract_lets a b t u v
  have ht : Works (grantOf s.tables f) s t := .of_arbiter _ rfl
  have hu : Works (grantOf s.tables f) s u := ht.trans (.of_arbiter _ (by
    unfold u State.cancelCheck
    split <;> rfl))
  have hv : Works (grantOf s.tables f) s v := hu.trans (u.beginMove_works
    (show grantOf s.tables f (.valves f) from rfl)
    (by rw [hu.tables]; exact fun _ => grantOf_of_coag) _ _)
  exact hv.trans (v.notify_works _ _)

end Sys2Proof.Machine
end

section
/-!
PROOFS. One line under a change of its causes that latches nothing new (R53, R54, R61-R63): what it settles at,
and that it stays there while other objects are worked on and while its causes are told again.
-/

namespace Sys2Proof.Machine

open Sys2Proof.Safety Sys2Proof.Claims

/-! ## The rate (R53) -/

/-- The value of the first least term is the least of the values. -/
theorem leastTerm_fst (x : Nat × Term) (l : List (Nat × Term)) :
    (leastTerm (x :: l)).1 = (l.map Prod.fst).foldl min x.1 := by
  have hfold : ∀ x : Nat × Term, (l.foldl (fun a b => if b.1 < a.1 then b else a) x).1 =
      (l.map Prod.fst).foldl min x.1 := by
    induction l with
    | nil => exact fun _ => rfl
    | cons y l ih =>
      intro x
      rw [List.foldl_cons, ih, List.map_cons, List.foldl_cons]
      congr 1
      split <;> omega
  exact hfold x

/-- A dosing line is admitted the least of its terms (R53). -/
theorem State.leastTerm_rateFor (s : State) (i : LineIx) :
    (leastTerm (s.rateTerms i)).1 = rateFor s i (s.gate.get i).requested := by
  unfold State.rateTerms rateFor
  simp only [List.cons_append, List.nil_append, leastTerm_fst]
  split <;> split <;> rfl

theorem State.blindApplies_congr {s t : State} (hsame : t.offWash = s.offWash) (i : LineIx) :
    t.blindApplies i = s.blindApplies i := by
  have htables : t.tables = s.tables := congrArg (·.tables) hsame
  have hslots : t.slots = s.slots := congrArg (·.slots) hsame
  have hmode : t.modeNow = s.modeNow := congrArg (·.mode.state.mode) hsame
  simp only [State.blindApplies, State.reading, htables, hslots, hmode]

theorem State.rateTerms_congr {s t : State} {i : LineIx} (hsame : t.offWash = s.offWash)
    (hrequested : (t.gate.get i).requested = (s.gate.get i).requested) :
    t.rateTerms i = s.rateTerms i := by
  have htables : t.tables = s.tables := congrArg (·.tables) hsame
  have hflow : t.flow = s.flow := congrArg (·.flow) hsame
  unfold State.rateTerms State.flowClass
  rw [State.blindApplies_congr hsame, hrequested, htables, hflow]

theorem State.admittedRate_dosing (s : State) (i : LineIx)
    (h : (s.gate.get i).state = .dosing ∧ (s.gate.get i).causes.any = false) :
    s.admittedRate i = leastTerm (s.rateTerms i) := by
  simp only [State.admittedRate, if_pos h]

/-- A line that is not DOSING, or holds a cause, is admitted nothing and keeps its binding term (R50, R53). -/
theorem State.admittedRate_idle (s : State) (i : LineIx)
    (h : ¬ ((s.gate.get i).state = .dosing ∧ (s.gate.get i).causes.any = false)) :
    s.admittedRate i = (0, (s.gate.get i).binding) := by
  simp only [State.admittedRate, if_neg h]

/-- The rate rests on the line's state, request, causes and binding term and on what no operation here changes
(R53). -/
theorem State.admittedRate_congr {s t : State} {i : LineIx} (hsame : t.offWash = s.offWash)
    (hstate : (t.gate.get i).state = (s.gate.get i).state)
    (hrequested : (t.gate.get i).requested = (s.gate.get i).requested)
    (hany : (t.gate.get i).causes.any = (s.gate.get i).causes.any)
    (hbinding : (t.gate.get i).binding = (s.gate.get i).binding) :
    t.admittedRate i = s.admittedRate i := by
  by_cases hd : (s.gate.get i).state = .dosing ∧ (s.gate.get i).causes.any = false
  · rw [s.admittedRate_dosing i hd, t.admittedRate_dosing i (by rwa [hstate, hany]),
      State.rateTerms_congr hsame hrequested]
  · rw [s.admittedRate_idle i hd, t.admittedRate_idle i (by rwa [hstate, hany]), hbinding]

/-! ## The causes and the permit -/

/-- The permit of line `i` is as its conditions give it (R55). -/
def State.PermitSet (s : State) (i : LineIx) : Prop := s.pins.permits.get i = s.permitDue i

theorem State.putLine_permit (s : State) (i : LineIx) (l : Line) : (s.putLine i l).PermitSet i := by
  have hdue : (s.putLine i l).permitDue i = State.permitDue { s with gate := s.gate.set i l } i := rfl
  rw [State.PermitSet, hdue]
  simp only [State.putLine_fields, Table.get_set_self]

theorem QuietFrame.permitSet {s t : State} (h : QuietFrame s t) {i : LineIx} (hi : s.PermitSet i) :
    t.PermitSet i := by
  rw [State.PermitSet, h.permits, h.frame.permitDue (by rw [h.gate])]
  exact hi

theorem State.excludeDrop_quiet (s : State) (i : LineIx) : QuietFrame (s.putLine i
    { s.gate.get i with state := .stopped, requested := 0, source := .none, resume := 0 })
    (s.excludeDrop i) := (State.notify_quiet _ _).trans (State.endProgramme_quiet _ _ _)

/-- A recompute keeps the causes and sets the permit (R54, R55). -/
theorem State.recompute_causes (s : State) (w : For) (i : LineIx) :
    ((s.recompute w i).gate.get i).causes = (s.gate.get i).causes ∧ (s.recompute w i).PermitSet i := by
  unfold State.recompute
  extract_lets l r t u
  split
  · have q := s.excludeDrop_quiet i
    exact ⟨by rw [q.gate, State.putLine_get], q.permitSet (State.putLine_permit _ _ _)⟩
  split
  · exact ⟨by rw [State.putLine_get], State.putLine_permit _ _ _⟩
  have ht : (t.gate.get i).causes = l.causes ∧ t.PermitSet i :=
    ⟨by simp [t, State.startConfirm, l], State.putLine_permit _ _ _⟩
  have hu : QuietFrame t u := by
    unfold u
    split
    · exact .refl t
    · exact t.originate_quiet _ _
  split
  · have q := hu.trans (u.notify_quiet ⟨.clamped, .line, i.val + 1, r.2.cause, r.1⟩)
    exact ⟨by rw [q.gate]; exact ht.1, q.permitSet ht.2⟩
  · exact ⟨by rw [hu.gate]; exact ht.1, hu.permitSet ht.2⟩

theorem State.resumeExpired_causes (s : State) (i : LineIx) :
    ((s.resumeExpired i).gate.get i).causes = (s.gate.get i).causes ∧
      (s.resumeExpired i).PermitSet i := by
  unfold State.resumeExpired
  extract_lets l
  split
  · have q := s.excludeDrop_quiet i
    exact ⟨by rw [q.gate, State.putLine_get], q.permitSet (State.putLine_permit _ _ _)⟩
  split
  · exact ⟨by rw [State.putLine_get], State.putLine_permit _ _ _⟩
  · obtain ⟨hcauses, hpermit⟩ := (s.putLine i { l with state := .dosing, resume := 0 }).recompute_causes
      .event i
    exact ⟨by rw [hcauses, State.putLine_get], hpermit⟩

/-- A line that is not DISABLED takes the causes it is told, and its permit is set (R55, R61). -/
theorem State.applyCauses_causes (s : State) (i : LineIx) (new : Causes)
    (h : (s.gate.get i).state ≠ .disabled) :
    ((s.applyCauses i new).gate.get i).causes = new ∧ (s.applyCauses i new).PermitSet i := by
  unfold State.applyCauses
  extract_lets l cleared requested next resumes delay t u
  rw [if_neg h]
  have hu : (u.gate.get i).causes = new := by
    have ht : (t.gate.get i).causes = new := by simp [t]
    unfold u
    split
    · rw [(t.endProgramme_quiet i _).gate]; exact ht
    · exact ht
  split
  · obtain ⟨hcauses, hpermit⟩ := u.resumeExpired_causes i
    exact ⟨hcauses.trans hu, hpermit⟩
  · obtain ⟨hcauses, hpermit⟩ := u.recompute_causes .event i
    exact ⟨hcauses.trans hu, hpermit⟩

/-! ## What a line settles at -/

/-- Work on any of the objects. -/
abbrev Worked (s t : State) : Prop := Works (fun _ => True) s t

theorem Works.worked {K : PlantObject → Prop} {s t : State} (h : Works K s t) : Worked s t :=
  h.mono fun _ _ => trivial

/-- The line enters and leaves its states by its causes alone (R61-R63): the state of a line that had the state
of `l`, once its causes are settled; `any` says whether one is present, `delay` is the resume delay. -/
def Line.settledState (l : Line) (any : Bool) (delay : Nat) : LineState :=
  match l.state with
  | .disabled => .disabled
  | .faulted => .faulted
  | .inhibited =>
    if any then .inhibited else if l.requested = 0 then .stopped
    else if delay = 0 then .dosing else .resuming
  | .stopped => if any then .inhibited else .stopped
  | .dosing => if any then .inhibited else .dosing
  | .resuming => if any then .inhibited else .resuming

/-- From `r` to `t` line `i` has moved to the state that its causes give, its request kept. -/
structure LineMoved (r t : State) (i : LineIx) : Prop where
  state : (t.gate.get i).state = (r.gate.get i).settledState (t.gate.get i).causes.any
    (r.tables.lines.get i).resumeDelay
  requested : (t.gate.get i).requested = (r.gate.get i).requested
  source : (t.gate.get i).source = (r.gate.get i).source
  resume : (t.gate.get i).state = .resuming → (t.gate.get i).resume =
    if (r.gate.get i).state = .resuming then (r.gate.get i).resume
    else (r.tables.lines.get i).resumeDelay

/-- It has settled there at its rate (R53); a change of the rate is commanded and awaited, and told with CLAMPED
(R54). -/
structure LineSettles (r t : State) (i : LineIx) : Prop extends LineMoved r t i where
  rate : t.admittedRate i = ((t.gate.get i).admitted, (t.gate.get i).binding)
  sent : (t.gate.get i).admitted ≠ (r.gate.get i).admitted →
    Offers r t (r.entryOf (.line i)) (t.gate.get i).admitted 21 ∧
      (t.gate.get i).confirmation = .awaiting (some (r.tables.lines.get i).confirmLimit) ∧
      ((t.gate.get i).state = .dosing → 0 < (t.gate.get i).admitted →
        (t.gate.get i).admitted < (t.gate.get i).requested →
        Raised t ⟨.clamped, .line, i.val + 1, (t.gate.get i).binding.cause, (t.gate.get i).admitted⟩)

theorem LineMoved.of_line {r s t : State} {i : LineIx} (h : LineMoved r s i)
    (hstate : (t.gate.get i).state = (s.gate.get i).state)
    (hcauses : (t.gate.get i).causes = (s.gate.get i).causes)
    (hrequested : (t.gate.get i).requested = (s.gate.get i).requested)
    (hsource : (t.gate.get i).source = (s.gate.get i).source)
    (hresume : (t.gate.get i).resume = (s.gate.get i).resume) : LineMoved r t i where
  state := by rw [hstate, hcauses]; exact h.state
  requested := by rw [hrequested]; exact h.requested
  source := by rw [hsource]; exact h.source
  resume := by rw [hstate, hresume]; exact h.resume

/-- It stays so while other objects are worked on. -/
theorem LineSettles.later {K : PlantObject → Prop} {r t u : State} {i : LineIx} (h : LineSettles r t i)
    (ht : t.tables = r.tables) (k : Works K t u) (hi : ¬ K (.line i)) : LineSettles r u i := by
  have hline := k.line i hi
  refine ⟨h.toLineMoved.of_line (by rw [hline]) (by rw [hline]) (by rw [hline]) (by rw [hline])
    (by rw [hline]), ?_, ?_⟩
  · rw [State.admittedRate_congr k.same (by rw [hline]) (by rw [hline]) (by rw [hline]) (by rw [hline]),
      hline]
    exact h.rate
  · rw [hline]
    intro hne
    obtain ⟨hoffers, hawaits, hclamped⟩ := h.sent hne
    exact ⟨k.offers_later ht hoffers hi, hawaits, fun hd hp hl => k.raised _ (hclamped hd hp hl)⟩

/-- No other line doses at the point of a line that is alone there, whatever was worked on (R60). -/
theorem Works.alone {K : PlantObject → Prop} {r s : State} (h : Works K r s) {i : LineIx}
    (ha : Alone r i) : s.otherDosing i = false := by
  rw [State.otherDosing_false]
  intro j hj hpoint
  rw [h.tables] at hpoint
  obtain ⟨-, hdisabled, hadmitted⟩ := ha j hj hpoint
  rw [h.disabled j hdisabled]
  exact hadmitted

/-- The line at a rate, its binding term with it. -/
def Line.atRate (l : Line) (rate : Nat × Term) (c : Confirmation) : Line :=
  { l with admitted := rate.1, binding := rate.2, confirmation := c }

/-- A line that has moved and is put at its rate is at its rate. -/
theorem LineMoved.atRate {r s t : State} {i : LineIx} (h : LineMoved r s i) {c : Confirmation}
    (hsame : t.offWash = s.offWash)
    (hline : t.gate.get i = (s.gate.get i).atRate (s.admittedRate i) c) :
    LineMoved r t i ∧ t.admittedRate i = ((t.gate.get i).admitted, (t.gate.get i).binding) := by
  refine ⟨h.of_line (by rw [hline]; rfl) (by rw [hline]; rfl) (by rw [hline]; rfl)
    (by rw [hline]; rfl) (by rw [hline]; rfl), ?_⟩
  by_cases hd : (s.gate.get i).state = .dosing ∧ (s.gate.get i).causes.any = false
  · have hterms : t.rateTerms i = s.rateTerms i := State.rateTerms_congr hsame (by rw [hline]; rfl)
    rw [t.admittedRate_dosing i (by rw [hline]; exact hd), hterms, ← s.admittedRate_dosing i hd, hline]
    rfl
  · rw [t.admittedRate_idle i (by rw [hline]; exact hd), hline, s.admittedRate_idle i hd]
    rfl

/-- An event's recompute settles a line that has moved, unless it must be dropped (R54, R60). -/
theorem State.recompute_settles {r s : State} {i : LineIx} (h : Worked r s) (hm : LineMoved r s i)
    (hn : (s.gate.get i).state ≠ .disabled) (hadmitted : (s.gate.get i).admitted = (r.gate.get i).admitted)
    (hx : (s.admittedRate i).1 = 0 ∨ s.otherDosing i = false) :
    LineSettles r (s.recompute .event i) i := by
  unfold State.recompute
  extract_lets l rate t u
  rw [if_neg (by
    rintro ⟨-, hpos, hother⟩
    rcases hx with hx | hx
    · exact absurd hpos (by rw [show rate.1 = 0 from hx]; decide)
    · rw [hx] at hother; cases hother)]
  split
  · rename_i hsame
    have hline : (s.putLine i { l with binding := rate.2 }).gate.get i =
        l.atRate rate l.confirmation := by
      rw [State.putLine_get, Line.atRate, hsame]
    obtain ⟨hmoved, hr⟩ := hm.atRate (s.putLine_gate i _).offWash hline
    refine ⟨hmoved, hr, fun hne => absurd ?_ hne⟩
    rw [hline, ← hadmitted]
    exact hsame
  rename_i hne
  have hst : Worked s t := (s.putLine_works trivial _ hn).trans
    (State.putLine_works trivial _ _ (by simpa using hn))
  have ht : Worked r t := h.trans hst
  have hoffers : Offers r u (r.entryOf (.line i)) rate.1 21 := ht.offers (.line i) rate.1
  have hu : u.gate.get i = l.atRate rate (.awaiting (some (s.tables.lines.get i).confirmLimit)) := by
    have hgate : u.gate = t.gate := (t.originate_quiet _ _).gate
    rw [hgate]
    simp [t, State.startConfirm, Line.atRate]
  have hwu : Worked s u := hst.trans (t.originate_works (x := .line i) _ _ rfl trivial)
  have hlimit : (s.tables.lines.get i).confirmLimit = (r.tables.lines.get i).confirmLimit := by
    rw [h.tables]
  split
  · have hv := u.notify_works (fun _ => False) ⟨.clamped, .line, i.val + 1, rate.2.cause, rate.1⟩
    have hline := hv.line i id
    rw [hu] at hline
    obtain ⟨hmoved, hr⟩ := hm.atRate (hv.same.trans hwu.same) hline
    refine ⟨hmoved, hr, fun _ => ?_⟩
    rw [hline, ← hlimit]
    exact ⟨hv.offers_later (hwu.tables.trans h.tables) hoffers id, rfl,
      fun _ _ _ => u.notify_raised _⟩
  · rename_i hclamp
    obtain ⟨hmoved, hr⟩ := hm.atRate hwu.same hu
    refine ⟨hmoved, hr, fun _ => ?_⟩
    rw [hu, ← hlimit]
    exact ⟨hoffers, rfl, fun hd hp hl => absurd ⟨rfl, hd, hp, hl⟩ hclamp⟩

/-! ## A change of causes that latches nothing new (R61, R62) -/

/-- The line as the causes `new` leave it before the recompute. -/
def Line.told (l : Line) (new : Causes) (delay : Nat) : Line :=
  { l with
    causes := new
    state := l.nextState new l.requested
    resume := if l.state = .inhibited ∧ l.nextState new l.requested = .resuming then delay
      else if l.nextState new l.requested = .resuming then l.resume else 0 }

/-- The line resumes at once: its delay is 0 s (R63). -/
abbrev Line.ResumesAtOnce (l : Line) (new : Causes) (delay : Nat) : Prop :=
  (l.state = .inhibited ∧ l.nextState new l.requested = .resuming) ∧ delay = 0

theorem Causes.clearedBy_of_unlatched {old new : Causes} (h : old.latchedNew new = false) :
    old.clearedBy new = none := by
  simp only [Causes.latchedNew, Bool.or_eq_false_iff] at h
  obtain ⟨⟨⟨hcirc, hplant⟩, -⟩, -⟩ := h
  simp only [Causes.clearedBy, hcirc, hplant, Bool.false_eq_true, if_false]

theorem State.applyCauses_unlatched (s : State) (i : LineIx) (new : Causes)
    (hn : (s.gate.get i).state ≠ .disabled) (hl : (s.gate.get i).causes.latchedNew new = false) :
    s.applyCauses i new =
      if (s.gate.get i).ResumesAtOnce new (s.tables.lines.get i).resumeDelay
      then (s.putLine i ((s.gate.get i).told new (s.tables.lines.get i).resumeDelay)).resumeExpired i
      else (s.putLine i ((s.gate.get i).told new (s.tables.lines.get i).resumeDelay)).recompute
        .event i := by
  unfold State.applyCauses Line.told
  simp only [if_neg hn, hl, Causes.clearedBy_of_unlatched hl, Bool.false_eq_true, if_false]

/-- Unless it resumes at once the line is in the state that it settles in. -/
theorem Line.nextState_settled (l : Line) (new : Causes) (delay : Nat)
    (h : ¬ l.ResumesAtOnce new delay) :
    l.nextState new l.requested = l.settledState new.any delay := by
  unfold Line.ResumesAtOnce at h
  unfold Line.nextState Line.settledState at *
  cases hl : l.state with
  | inhibited =>
    rw [hl] at h
    dsimp only at h ⊢
    split
    · rfl
    split
    · rfl
    · rw [if_neg]
      intro hd
      refine h ⟨⟨rfl, ?_⟩, hd⟩
      rw [if_neg (by assumption), if_neg (by assumption)]
  | disabled => rfl
  | faulted => rfl
  | stopped => rfl
  | dosing => rfl
  | resuming => rfl

/-- A line that resumes at once settles DOSING, with a request above 0. -/
theorem Line.ResumesAtOnce.settled {l : Line} {new : Causes} {delay : Nat}
    (h : l.ResumesAtOnce new delay) :
    l.settledState new.any delay = .dosing ∧ l.requested ≠ 0 := by
  obtain ⟨⟨hl, hnext⟩, hd⟩ := h
  unfold Line.nextState at hnext
  unfold Line.settledState
  rw [hl] at hnext ⊢
  dsimp only at hnext ⊢
  split at hnext
  · cases hnext
  split at hnext
  · cases hnext
  · rename_i hany hreq
    rw [if_neg hany, if_neg hreq, if_pos hd]
    exact ⟨rfl, hreq⟩

/-- In its settled state a line that is told of causes, of which some or none are present as before, stays. -/
theorem Line.settledState_stays (l m : Line) (new : Causes) (delay : Nat)
    (hm : m.state = l.settledState new.any delay) :
    m.nextState new m.requested = m.state ∧ ¬ m.ResumesAtOnce new delay := by
  have hstays : m.nextState new m.requested = m.state := by
    unfold Line.settledState at hm
    unfold Line.nextState
    cases hany : new.any
    · cases hl : l.state <;> simp only [hl, hany, Bool.false_eq_true, if_false] at hm ⊢
      · rw [hm]
      · rw [hm]
      · rw [hm]
      · split at hm
        · rw [hm]
        split at hm
        · rw [hm]
        · rw [hm]
      · rw [hm]
      · rw [hm]
    · cases hl : l.state <;> simp only [hl, hany, if_true] at hm ⊢ <;> rw [hm]
  refine ⟨hstays, fun ⟨⟨hi, hr⟩, _⟩ => ?_⟩
  rw [hstays, hi] at hr
  cases hr

theorem Line.settledState_ne_disabled {l : Line} (h : l.state ≠ .disabled) (any : Bool) (delay : Nat) :
    l.settledState any delay ≠ .disabled := by
  unfold Line.settledState
  cases hl : l.state with
  | disabled => exact absurd hl h
  | faulted => nofun
  | inhibited => dsimp only; split_ifs <;> nofun
  | stopped => dsimp only; split_ifs <;> nofun
  | dosing => dsimp only; split_ifs <;> nofun
  | resuming => dsimp only; split_ifs <;> nofun

/-- A line that is RESUMING was, before it was told, RESUMING or INHIBITED (R61, R62). -/
theorem Line.resuming_of_nextState {l : Line} {new : Causes}
    (h : l.nextState new l.requested = .resuming) : l.state = .resuming ∨ l.state = .inhibited := by
  unfold Line.nextState at h
  cases hl : l.state with
  | inhibited => exact .inr rfl
  | resuming => exact .inl rfl
  | disabled => rw [hl] at h; cases h
  | faulted => rw [hl] at h; cases h
  | stopped => rw [hl] at h; dsimp only at h; split at h <;> cases h
  | dosing => rw [hl] at h; dsimp only at h; split at h <;> cases h

/-- The resume delay of a line that is told starts as it becomes RESUMING, and runs on while it is (R62). -/
theorem Line.told_resume {l : Line} {new : Causes} (delay : Nat)
    (h : l.nextState new l.requested = .resuming) :
    (l.told new delay).resume = if l.state = .resuming then l.resume else delay := by
  unfold Line.told
  dsimp only
  rcases Line.resuming_of_nextState h with hl | hl
  · rw [if_neg (by rw [hl]; nofun), if_pos h, if_pos hl]
  · rw [if_pos ⟨hl, h⟩, if_neg (by rw [hl]; nofun)]

/-- A resume timer's expiry lets a line with a request dose where no other doses at its point (R63). -/
theorem State.resumeExpired_doses (s : State) (i : LineIx) (hr : (s.gate.get i).requested ≠ 0)
    (ho : s.otherDosing i = false) : s.resumeExpired i =
      (s.putLine i { s.gate.get i with state := .dosing, resume := 0 }).recompute .event i := by
  unfold State.resumeExpired
  dsimp only
  rw [if_neg (by rw [ho]; nofun), if_neg hr]

/-- A line untouched so far settles when it is told of new causes, none of them newly latched, unless it is to
dose at a point where others are enabled (R53, R54, R60-R63). -/
theorem State.applyCauses_settles {r s : State} {i : LineIx} {new : Causes} (h : Worked r s)
    (hline : s.gate.get i = r.gate.get i) (hn : (r.gate.get i).state ≠ .disabled)
    (hl : (r.gate.get i).causes.latchedNew new = false)
    (ha : (r.gate.get i).settledState new.any (r.tables.lines.get i).resumeDelay = .dosing →
      Alone r i) : LineSettles r (s.applyCauses i new) i := by
  have hns : (s.gate.get i).state ≠ .disabled := by rwa [hline]
  rw [s.applyCauses_unlatched i new hns (by rwa [hline]), hline, h.tables]
  by_cases hat : (r.gate.get i).ResumesAtOnce new (r.tables.lines.get i).resumeDelay
  · obtain ⟨hdosing, hrequested⟩ := hat.settled
    have hput := h.trans (s.putLine_works (i := i) trivial
      ((r.gate.get i).told new (r.tables.lines.get i).resumeDelay) hns)
    rw [if_pos hat, State.resumeExpired_doses _ _ (by rw [State.putLine_get]; exact hrequested)
      (hput.alone (ha hdosing)), State.putLine_get]
    have hputs := hput.trans (State.putLine_works (i := i) trivial _ { (r.gate.get i).told new
      (r.tables.lines.get i).resumeDelay with state := .dosing, resume := 0 } (by
        rw [State.putLine_get]
        exact fun hd => nomatch hat.1.2.symm.trans hd))
    refine State.recompute_settles hputs ⟨?_, ?_, ?_, ?_⟩ ?_ ?_ (.inr (hputs.alone (ha hdosing)))
    · rw [State.putLine_get]; exact hdosing.symm
    · rw [State.putLine_get]; rfl
    · rw [State.putLine_get]; rfl
    · rw [State.putLine_get]; nofun
    · rw [State.putLine_get]; nofun
    · rw [State.putLine_get]; rfl
  · rw [if_neg hat]
    have hsettled := (r.gate.get i).nextState_settled new _ hat
    have hput : Worked r (s.putLine i ((r.gate.get i).told new (r.tables.lines.get i).resumeDelay)) :=
      h.trans (s.putLine_works trivial _ hns)
    refine State.recompute_settles hput ⟨?_, ?_, ?_, ?_⟩ ?_ ?_ ?_
    · rw [State.putLine_get]; exact hsettled
    · rw [State.putLine_get]; rfl
    · rw [State.putLine_get]; rfl
    · rw [State.putLine_get]; exact Line.told_resume _
    · rw [State.putLine_get]
      exact fun hd => Line.settledState_ne_disabled hn _ _ (hsettled.symm.trans hd)
    · rw [State.putLine_get]; rfl
    · by_cases hd : (r.gate.get i).settledState new.any (r.tables.lines.get i).resumeDelay = .dosing
      · exact .inr (hput.alone (ha hd))
      · refine .inl ?_
        rw [State.admittedRate_idle]
        rw [State.putLine_get]
        exact fun hc => hd (hsettled.symm.trans hc.1)

/-- A command waits where the ports stand. -/
theorem offers_of_ports {s t u : State} {k : Option (Fin 48)} {v room : Nat} (h : Offers s t k v room)
    (hports : u.ports = t.ports) : Offers s u k v room := by
  unfold Offers State.segState
  rw [hports]
  exact h

/-- Where the rate is what is admitted, a recompute writes the binding term alone (R54). -/
theorem State.recompute_same_rate (s : State) (w : For) (i : LineIx)
    (h : (s.admittedRate i).1 = (s.gate.get i).admitted) :
    s.recompute w i = s.putLine i { s.gate.get i with binding := (s.admittedRate i).2 } := by
  unfold State.recompute
  dsimp only
  rw [if_neg (by rintro ⟨hz, hp, -⟩; omega), if_pos h]

/-- A settled line that is told again, with causes present or none as before, takes the causes and stays: nothing
is commanded and nothing told (R54, R61). -/
theorem State.applyCauses_again {r t : State} {i : LineIx} {new : Causes} (h : LineSettles r t i)
    (ht : t.tables = r.tables) (hn : (r.gate.get i).state ≠ .disabled)
    (hl : (t.gate.get i).causes.latchedNew new = false)
    (hany : new.any = (t.gate.get i).causes.any) :
    LineSettles r (t.applyCauses i new) i := by
  have hstate : (t.gate.get i).state = (r.gate.get i).settledState new.any
      (r.tables.lines.get i).resumeDelay := by rw [hany]; exact h.state
  have hnt : (t.gate.get i).state ≠ .disabled := fun hd =>
    Line.settledState_ne_disabled hn _ _ (hstate.symm.trans hd)
  obtain ⟨hstays, hat⟩ := Line.settledState_stays _ _ _ _ hstate
  rw [t.applyCauses_unlatched i new hnt hl, ht, if_neg hat]
  obtain ⟨l, hlt⟩ : ∃ l, l = (t.gate.get i).told new (r.tables.lines.get i).resumeDelay := ⟨_, rfl⟩
  rw [← hlt]
  have hgate : (t.putLine i l).gate.get i = l := State.putLine_get _ _ _
  have hrate : (t.putLine i l).admittedRate i = (l.admitted, l.binding) := by
    rw [State.admittedRate_congr (t.putLine_gate i l).offWash (by rw [hgate, hlt]; exact hstays)
      (by rw [hgate, hlt]; rfl) (by rw [hgate, hlt]; exact hany) (by rw [hgate, hlt]; rfl), h.rate, hlt]
    rfl
  rw [State.recompute_same_rate _ _ _ (by rw [hrate, hgate]), hrate, hgate]
  obtain ⟨u, hu⟩ : ∃ u, u = (t.putLine i l).putLine i l := ⟨_, rfl⟩
  have hline : u.gate.get i = l := by rw [hu]; exact State.putLine_get _ _ _
  have hports : u.ports = t.ports ∧ u.mgmt = t.mgmt := by rw [hu]; exact ⟨rfl, rfl⟩
  have hrates : u.admittedRate i = (l.admitted, l.binding) := by
    rw [← hrate, hu]
    exact State.admittedRate_congr (State.putLine_gate _ i l).offWash (by rw [State.putLine_get, hgate])
      (by rw [State.putLine_get, hgate]) (by rw [State.putLine_get, hgate])
      (by rw [State.putLine_get, hgate])
  change LineSettles r ((t.putLine i l).putLine i l) i
  rw [← hu]
  refine ⟨⟨?_, ?_, ?_, fun hr => ?_⟩, ?_, fun hne => ?_⟩
  · rw [hline, hlt]; exact hstays.trans hstate
  · rw [hline, hlt]; exact h.requested
  · rw [hline, hlt]; exact h.source
  · rw [hline, hlt] at hr
    rw [hline, hlt, Line.told_resume _ hr, if_pos (hstays.symm.trans hr)]
    exact h.resume (hstays.symm.trans hr)
  · rw [hrates, hline]
  · have hadmitted : l.admitted = (t.gate.get i).admitted := by rw [hlt]; rfl
    rw [hline, hadmitted] at hne ⊢
    obtain ⟨hoffers, hawaits, hclamped⟩ := h.sent hne
    refine ⟨offers_of_ports hoffers hports.1, by rw [hlt]; exact hawaits, ?_⟩
    rw [hlt, Raised, hports.1, hports.2]
    exact fun hd => hclamped (hstays.symm.trans hd)

end Sys2Proof.Machine
end

section
/-!
PROOFS. A line under the report of a changed class (R64): it follows its FLOW cause, and keeps what it came to
while the other reports of the window end, the aborts and the grant are worked.
-/

namespace Sys2Proof.Machine

open Sys2Proof.Safety Sys2Proof.Claims

/-! ## What a settled line shows -/

section
variable {r t : State} {i : LineIx}

/-- A line that settled in another state than DOSING is at rest, its pump sent 0 (R54). -/
theorem LineSettles.idle (h : LineSettles r t i) (hd : (t.gate.get i).state ≠ .dosing) :
    (t.gate.get i).admitted = 0 ∧
      ((r.gate.get i).admitted ≠ 0 → Offers r t (r.lineEntry i) 0 21) := by
  have hzero : (t.gate.get i).admitted = 0 := by
    have hrate := h.rate
    rw [t.admittedRate_idle i fun hc => hd hc.1] at hrate
    exact (congrArg Prod.fst hrate).symm
  refine ⟨hzero, fun hne => ?_⟩
  obtain ⟨hoffers, -⟩ := h.sent (by rw [hzero]; exact hne.symm)
  rwa [hzero] at hoffers

/-- A line that settled DOSING, with no cause present, doses the least of its terms (R53). -/
theorem LineSettles.doses (h : LineSettles r t i) (hd : (t.gate.get i).state = .dosing)
    (hany : (t.gate.get i).causes.any = false) : Doses r t i := by
  have hadmitted : (t.gate.get i).admitted = rateFor t i (r.gate.get i).requested := by
    rw [← h.requested, ← t.leastTerm_rateFor i, ← t.admittedRate_dosing i ⟨hd, hany⟩, h.rate]
  refine ⟨hd, h.requested, h.source, hadmitted, fun hne => ?_⟩
  obtain ⟨hoffers, hawaits, hclamped⟩ := h.sent hne
  exact ⟨hoffers, hawaits, fun hp hl => hclamped hd hp (by rw [h.requested]; exact hl)⟩

end

/-- The permit that is as its conditions give it (R55). -/
theorem State.PermitSet.iff {t : State} {i : LineIx} (h : t.PermitSet i) : t.pins.permits.get i = true ↔
    (t.gate.get i).state = .dosing ∧ 0 < (t.gate.get i).admitted ∧
      (t.flowClass (t.tables.lines.get i).circuit = .full ∨
        t.flowClass (t.tables.lines.get i).circuit = .reduced) ∧ t.pins.plantStop = false ∧
      (t.modeNow = .supervised ∨ t.modeNow = .fallback ∨ t.modeNow = .commission) := by
  have hflow : ∀ x : FlowClass, x.starved = false ↔ x = .full ∨ x = .reduced := by
    intro x; cases x <;> simp [FlowClass.starved]
  have hmode : ∀ m : Mode, m.permits = true ↔ m = .supervised ∨ m = .fallback ∨ m = .commission := by
    intro m; cases m <;> simp [Mode.permits]
  rw [h]
  simp only [State.permitDue, Bool.and_eq_true, beq_iff_eq, decide_eq_true_eq, Bool.not_eq_true', hflow,
    hmode, and_assoc]

/-- From `r` to `t` line `i` follows the FLOW cause of its circuit. -/
structure Follows (r t : State) (i : LineIx) : Prop where
  causes : (t.gate.get i).causes = { (r.gate.get i).causes with
    flow := r.flowCause i, backwash := (t.gate.get i).causes.backwash }
  kept : r.flowCause i = true ∨ (t.gate.get i).causes.backwash = (r.gate.get i).causes.backwash
  permit : t.PermitSet i
  settles : ((r.gate.get i).settledState (t.gate.get i).causes.any (r.tables.lines.get i).resumeDelay =
    .dosing → Alone r i) → LineSettles r t i

/-- A line that follows its FLOW cause stands as the statement has it. -/
theorem Follows.lineFollows {r t : State} {i : LineIx} (h : Follows r t i) (hw : Worked r t)
    (hn : (r.gate.get i).state ≠ .disabled) : LineFollows r t i := by
  have hrest : ∀ x, (r.gate.get i).settledState (t.gate.get i).causes.any
      (r.tables.lines.get i).resumeDelay = x → x ≠ .dosing → LineSettles r t i ∧
      (t.gate.get i).state = x ∧ (t.gate.get i).admitted = 0 ∧
        ((r.gate.get i).admitted ≠ 0 → Offers r t (r.lineEntry i) 0 21) := by
    intro x hx hne
    have hs := h.settles fun hd => absurd (hx.symm.trans hd) hne
    have hsx := hs.state.trans hx
    exact ⟨hs, hsx, hs.idle (hsx ▸ hne)⟩
  have hdoses : ∀ _ : (t.gate.get i).causes.any = false, (r.gate.get i).settledState
      (t.gate.get i).causes.any (r.tables.lines.get i).resumeDelay = .dosing → Alone r i →
      Doses r t i := by
    intro hany hx ha
    have hs := h.settles fun _ => ha
    exact hs.doses (hs.state.trans hx) hany
  refine ⟨?_, fun hl => ?_, fun hany hl => ?_, fun hany => ⟨fun hl => ?_, fun hl => ?_,
    fun hl hreq => ?_, fun hl hreq hdelay => ?_, fun hl hreq hdelay ha => ?_, fun hl ha => ?_⟩⟩
  · have := h.permit.iff
    rwa [hw.tables] at this
  · obtain ⟨hs, hx, hidle⟩ := hrest .faulted (by simp [Line.settledState, hl]) nofun
    exact ⟨hx, ⟨hs.requested, hs.source⟩, hidle⟩
  · obtain ⟨hs, hx, hidle⟩ := hrest .inhibited (by
      unfold Line.settledState
      rw [hany]
      cases hstate : (r.gate.get i).state with
      | disabled => exact absurd hstate hn
      | faulted => exact absurd hstate hl
      | stopped => rfl
      | dosing => rfl
      | inhibited => rfl
      | resuming => rfl) nofun
    exact ⟨hx, ⟨hs.requested, hs.source⟩, hidle⟩
  · obtain ⟨hs, hx, hidle⟩ := hrest .stopped (by simp [Line.settledState, hl, hany]) nofun
    exact ⟨hx, ⟨hs.requested, hs.source⟩, hidle⟩
  · obtain ⟨hs, hx, hidle⟩ := hrest .resuming (by simp [Line.settledState, hl, hany]) nofun
    have hresume := hs.resume hx
    rw [if_pos hl] at hresume
    exact ⟨hx, hresume, ⟨hs.requested, hs.source⟩, hidle⟩
  · obtain ⟨hs, hx, hidle⟩ := hrest .stopped (by simp [Line.settledState, hl, hany, hreq]) nofun
    exact ⟨hx, ⟨hs.requested, hs.source⟩, hidle⟩
  · obtain ⟨hs, hx, hidle⟩ := hrest .resuming (by
      simp [Line.settledState, hl, hany, hreq.ne', hdelay.ne']) nofun
    have hresume := hs.resume hx
    rw [if_neg (by rw [hl]; nofun)] at hresume
    exact ⟨hx, hresume, ⟨hs.requested, hs.source⟩, hidle⟩
  · exact hdoses hany (by simp [Line.settledState, hl, hany, hreq.ne', hdelay]) ha
  · exact hdoses hany (by simp [Line.settledState, hl, hany]) ha

/-! ## What keeps it -/

/-- Line `i` follows its FLOW cause after work on any objects. -/
structure FollowsOn (r : State) (i : LineIx) (t : State) : Prop where
  worked : Worked r t
  follows : Follows r t i

/-- It does so while other objects are worked on. -/
theorem FollowsOn.later {K : PlantObject → Prop} {r t u : State} {i : LineIx} (h : FollowsOn r i t)
    (k : Works K t u) (hi : ¬ K (.line i)) : FollowsOn r i u := by
  have hline := k.line i hi
  obtain ⟨hw, hcauses, hkept, hpermit, hsettles⟩ := h
  refine ⟨hw.trans k.worked, ?_, ?_, k.permit i hi hpermit, ?_⟩
  · rw [hline]; exact hcauses
  · rw [hline]; exact hkept
  · rw [hline]; exact fun ha => (hsettles ha).later hw.tables k hi

theorem State.applyCauses_disabled (s : State) (i : LineIx) (new : Causes)
    (h : (s.gate.get i).state = .disabled) : s.applyCauses i new = s := by
  unfold State.applyCauses
  exact if_pos h

/-- It does so while another line is told of causes. -/
theorem FollowsOn.other {r t : State} {i j : LineIx} (h : FollowsOn r i t) (hj : j ≠ i) (new : Causes) :
    FollowsOn r i (t.applyCauses j new) :=
  h.later (t.applyCauses_works (K := (· = .line j)) rfl new) (PlantObject.line_ne hj)

/-- A line that holds FLOW, or is told of BACKWASH as it is, stays as it follows FLOW (R64, R66). -/
theorem FollowsOn.again {r t : State} {i : LineIx} (h : FollowsOn r i t)
    (hn : (r.gate.get i).state ≠ .disabled) (b : Bool)
    (hb : r.flowCause i = true ∨ b = (t.gate.get i).causes.backwash) :
    FollowsOn r i (t.applyCauses i { (t.gate.get i).causes with backwash := b }) := by
  obtain ⟨hw, hcauses, hkept, hpermit, hsettles⟩ := h
  by_cases hnt : (t.gate.get i).state = .disabled
  · rw [t.applyCauses_disabled i _ hnt]
    exact ⟨hw, hcauses, hkept, hpermit, hsettles⟩
  obtain ⟨new, hnew⟩ : ∃ new, new = { (t.gate.get i).causes with backwash := b } := ⟨_, rfl⟩
  rw [← hnew]
  have hflow : (t.gate.get i).causes.flow = r.flowCause i := by rw [hcauses]
  have hany : new.any = (t.gate.get i).causes.any := by
    rcases hb with hb | hb
    · simp only [hnew, Causes.any, hflow, hb, Bool.true_or]
    · rw [hnew, hb]
  obtain ⟨htaken, hpermit'⟩ := t.applyCauses_causes i new hnt
  refine ⟨hw.trans (t.applyCauses_works trivial new), ?_, ?_, hpermit', fun ha => ?_⟩
  · rw [htaken, hnew, hcauses]
  · rw [htaken, hnew]
    exact hb.elim .inl fun hb => hb ▸ hkept
  · rw [htaken, hany] at ha
    refine State.applyCauses_again (hsettles ha) hw.tables hn ?_ hany
    simp [hnew, Causes.latchedNew]

/-- Line `i` holds FLOW, or holds BACKWASH exactly as the Sequencer's stages give it (R66). -/
def BackwashTold (r : State) (i : LineIx) (t : State) : Prop :=
  r.flowCause i = true ∨ t.backwashCause i = (t.gate.get i).causes.backwash

theorem State.applyCauses_backwashCause (s : State) (i j : LineIx) (new : Causes) :
    (s.applyCauses j new).backwashCause i = s.backwashCause i := by
  have g := s.applyCauses_gate j new
  simp only [State.backwashCause, State.backwashOf, g.tables, g.seq]

/-- A line is told of BACKWASH (R66). -/
theorem FollowsOn.tellBackwash {r t : State} {i : LineIx} (h : FollowsOn r i t ∧ BackwashTold r i t)
    (hn : (r.gate.get i).state ≠ .disabled) (j : LineIx) :
    FollowsOn r i (t.applyCauses j { (t.gate.get j).causes with backwash := t.backwashCause j }) ∧
      BackwashTold r i (t.applyCauses j { (t.gate.get j).causes with backwash := t.backwashCause j }) := by
  obtain ⟨hf, ht⟩ := h
  by_cases hj : j = i
  · subst hj
    refine ⟨hf.again hn _ ht, ?_⟩
    by_cases hd : (t.gate.get j).state = .disabled
    · rw [t.applyCauses_disabled j _ hd]
      exact ht
    · refine .inr ?_
      rw [t.applyCauses_backwashCause, (t.applyCauses_causes j _ hd).1]
  · refine ⟨hf.other hj _, ht.imp id fun ht => ?_⟩
    rw [t.applyCauses_backwashCause,
      (t.applyCauses_works (K := (· = .line j)) rfl _).line i (PlantObject.line_ne hj)]
    exact ht

/-- A report of a stage tells the COAG lines of its circuit of BACKWASH (R66), and no other line of anything. -/
theorem FollowsOn.gateBackwash {r t : State} {i : LineIx} (h : FollowsOn r i t)
    (hn : (r.gate.get i).state ≠ .disabled) (hb : BackwashTold r i t) (c : CircuitIx) :
    FollowsOn r i (t.gateBackwash c) := by
  unfold State.gateBackwash State.forLines
  refine (List.foldlRecOn (motive := fun u => FollowsOn r i u ∧ BackwashTold r i u) _ _ ⟨h, hb⟩
    fun u hu j _ => ?_).1
  dsimp only
  split
  · exact FollowsOn.tellBackwash hu hn j
  · exact hu

/-! ## The line under FLOW: the aborts -/

section
variable {r t : State} {i : LineIx} (h : FollowsOn r i t) (hn : (r.gate.get i).state ≠ .disabled)
  (hflow : r.flowCause i = true)
include h hn hflow

theorem FollowsOn.enterStage (f : FilterIx) (b : Backwash) (g : Stage) :
    FollowsOn r i (t.enterStage f b g) := by
  unfold State.enterStage
  extract_lets b' u
  have hu : FollowsOn r i u := by
    unfold u
    split
    · exact h.later (t.unrinsedNotice_works (K := (· = .valves f)) rfl _ _) nofun
    · exact h
  unfold State.beginMove
  extract_lets v
  have hv : FollowsOn r i v := hu.later (u.updFilter_works (K := (· = .valves f)) rfl _) nofun
  have hw := hv.later (v.originate_works (K := (· = .valves f)) (v.valveEntry f) g.position rfl rfl)
    nofun
  exact hw.gateBackwash hn (.inl hflow) _

theorem FollowsOn.abort (f : FilterIx) (c : AbortCause) : FollowsOn r i (t.abort f c) := by
  unfold State.abort
  split
  · exact h
  extract_lets u v
  split
  · exact h
  have hv : FollowsOn r i v := by
    unfold v
    split
    · exact h.later (t.stopPump_works (K := (· = .pump)) rfl 0) nofun
    · exact h
  split
  · exact hv.enterStage hn hflow _ _ _
  split
  · exact hv.enterStage hn hflow _ _ _
  · exact hv

theorem FollowsOn.seqFlow (c : CircuitIx) : FollowsOn r i (t.seqFlow c) := by
  unfold State.seqFlow State.forFilters
  split
  · refine List.foldlRecOn (motive := FollowsOn r i) _ _ h fun u hu f _ => ?_
    split
    · exact hu.abort hn hflow f _
    · exact hu
  · exact h

end

end Sys2Proof.Machine
end

section
/-!
PROOFS. A line under the whole window end (R27, R64): untouched until the class of its circuit is reported, it
follows its FLOW cause from then on.
-/

namespace Sys2Proof.Machine

open Sys2Proof.Safety Sys2Proof.Claims

/-- A fold that comes to `a` once: what holds before it, what it makes of that, and what the rest keeps. -/
theorem foldl_at {α : Type} {P Q : State → Prop} {f : State → α → State} {a : α} {l : List α}
    (ha : a ∈ l) (hd : l.Nodup) (before : ∀ s b, b ≠ a → P s → P (f s b)) (here : ∀ s, P s → Q (f s a))
    (after : ∀ s b, b ≠ a → Q s → Q (f s b)) {s : State} (h : P s) : Q (l.foldl f s) := by
  induction l generalizing s with
  | nil => cases ha
  | cons x l ih =>
    obtain ⟨hx, hl⟩ := List.nodup_cons.1 hd
    rw [List.foldl_cons]
    by_cases hxa : x = a
    · subst hxa
      exact List.foldlRecOn (motive := Q) _ _ (here s h) fun t ht b hb =>
        after t b (fun e => hx (e ▸ hb)) ht
    · exact ih ((List.mem_cons.1 ha).resolve_left fun e => hxa e.symm) hl (before s x hxa h)

/-! ## The report of the line's own circuit -/

theorem Works.flowCause {K : PlantObject → Prop} {s t : State} (h : Works K s t) (i : LineIx) :
    t.flowCause i = s.flowCause i := by
  simp only [State.flowCause, h.tables, h.flowClass]

/-- Told of FLOW for the first time, a line follows it (R64). -/
theorem State.tellFlow_follows {r t : State} {i : LineIx} (h : Worked r t)
    (hline : t.gate.get i = r.gate.get i) (hn : (r.gate.get i).state ≠ .disabled) :
    FollowsOn r i (t.applyCauses i { (t.gate.get i).causes with flow := t.flowCause i }) := by
  obtain ⟨new, hnew⟩ : ∃ new, new = { (r.gate.get i).causes with flow := r.flowCause i } := ⟨_, rfl⟩
  rw [hline, h.flowCause, ← hnew]
  obtain ⟨htaken, hpermit⟩ := t.applyCauses_causes i new (by rwa [hline])
  refine ⟨h.trans (t.applyCauses_works trivial new), ?_, .inr ?_, hpermit, fun ha => ?_⟩
  · rw [htaken, hnew]
  · rw [htaken, hnew]
  · rw [htaken] at ha
    exact State.applyCauses_settles h hline hn (by simp [hnew, Causes.latchedNew]) ha

theorem State.gateFlow_follows {r t : State} {i : LineIx} (h : Worked r t)
    (hline : t.gate.get i = r.gate.get i) (hn : (r.gate.get i).state ≠ .disabled) :
    FollowsOn r i (t.gateFlow (r.tables.lines.get i).circuit) := by
  unfold State.gateFlow State.forLines
  refine foldl_at (P := fun u => Worked r u ∧ u.gate.get i = r.gate.get i) (a := i)
    (List.mem_finRange i) (List.nodup_finRange 12) (fun u j hj hu => ?_) (fun u hu => ?_)
    (fun u j hj hu => ?_) ⟨h.trans (t.refreshPermits_works _), hline⟩
  · split
    · have hw := u.applyCauses_works (i := j) (K := (· = .line j)) rfl
        { (u.gate.get j).causes with flow := u.flowCause j }
      exact ⟨hu.1.trans hw.worked, (hw.line i (PlantObject.line_ne hj)).trans hu.2⟩
    · exact hu
  · rw [if_pos (by rw [hu.1.tables])]
    exact State.tellFlow_follows hu.1 hu.2 hn
  · split
    · exact hu.other hj _
    · exact hu

/-! ## The other reports -/

/-- The objects that are not of circuit `c`. -/
def notOf (T : Tables) (c : CircuitIx) : PlantObject → Prop
  | .line i => (T.lines.get i).circuit ≠ c
  | .valves f => (T.filters.get f).circuit ≠ c
  | .pump => True

theorem notOf_of_objects {T : Tables} {c d : CircuitIx} (h : d ≠ c) {x : PlantObject}
    (hx : objectsOf T d x) : notOf T c x := by
  cases x with
  | line i => exact fun e => h (hx.symm.trans e)
  | valves f => exact fun e => h (hx.symm.trans e)
  | pump => trivial

theorem State.reportClass_notOf {r t : State} (ht : t.tables = r.tables) {c d : CircuitIx} (h : d ≠ c) :
    Works (notOf r.tables c) t (t.reportClass d) :=
  (t.reportClass_works d).mono fun _ hx => notOf_of_objects h (ht ▸ hx)

/-- Line `i` follows FLOW, and unless it holds FLOW the filters of its circuit are as they were. -/
structure Reported (r : State) (i : LineIx) (t : State) : Prop extends FollowsOn r i t where
  filters : r.flowCause i = true ∨ ∀ f, (r.tables.filters.get f).circuit = (r.tables.lines.get i).circuit →
    t.seq.filters.get f = r.seq.filters.get f

section
variable {r : State} {i : LineIx} (hn : (r.gate.get i).state ≠ .disabled)
include hn

theorem State.reportClass_reported {t : State}
    (h : Works (notOf r.tables (r.tables.lines.get i).circuit) r t) :
    Reported r i (t.reportClass (r.tables.lines.get i).circuit) := by
  have hgate := State.gateFlow_follows h.worked (h.line i fun hi => hi rfl) hn
  have g := t.gateFlow_gate (r.tables.lines.get i).circuit
  unfold State.reportClass
  by_cases hflow : r.flowCause i = true
  · exact ⟨hgate.seqFlow hn hflow _, .inl hflow⟩
  · have hidle : (t.gateFlow (r.tables.lines.get i).circuit).seqFlow (r.tables.lines.get i).circuit =
        t.gateFlow (r.tables.lines.get i).circuit := by
      unfold State.seqFlow
      rw [if_neg]
      rwa [hgate.worked.flowClass]
    rw [hidle]
    refine ⟨hgate, .inr fun f hf => ?_⟩
    rw [g.seq]
    exact h.filter f fun hne => hne hf

omit hn in
theorem Reported.later {t u : State} (h : Reported r i t)
    (k : Works (notOf r.tables (r.tables.lines.get i).circuit) t u) : Reported r i u :=
  ⟨h.toFollowsOn.later k fun hi => hi rfl,
    h.filters.imp id fun hf f hc => (k.filter f fun hne => hne hc).trans (hf f hc)⟩

/-- The reports of the changed classes, the class of the line's circuit among them. -/
theorem State.reports_reported {s : State} (h : Works (fun _ => False) r s) {l : List CircuitIx}
    (hl : l.Nodup)
    (hc : (r.tables.lines.get i).circuit ∈ l) : Reported r i (l.foldl State.reportClass s) :=
  foldl_at (P := Works (notOf r.tables (r.tables.lines.get i).circuit) r) hc hl
    (fun _ _ hd h => h.trans (State.reportClass_notOf h.tables hd))
    (fun _ h => State.reportClass_reported hn h)
    (fun _ _ hd h => h.later (State.reportClass_notOf h.worked.tables hd)) (h.mono fun _ hx => hx.elim)

end

/-! ## The grant -/

/-- BACKWASH stands as it did where the filters of the circuit do, but for one that has entered BACKWASH at a stage
that does not hold it (R66). -/
theorem State.backwashCause_congr {s t : State} {i : LineIx} (htables : t.tables = s.tables)
    (h : ∀ f, (s.tables.filters.get f).circuit = (s.tables.lines.get i).circuit →
      t.backwashOf f = s.backwashOf f ∨
        s.backwashOf f = none ∧ ∃ b, t.backwashOf f = some b ∧ b.stage.holdsCoag = false) :
    t.backwashCause i = s.backwashCause i := by
  unfold State.backwashCause
  rw [htables]
  dsimp only
  congr 2
  funext f
  by_cases hc : (s.tables.filters.get f).circuit = (s.tables.lines.get i).circuit
  · rcases h f hc with hsame | ⟨hnone, b, hb, hholds⟩
    · rw [hsame]
    · rw [hnone, hb]
      dsimp only
      rw [hholds]
  · rw [beq_eq_false_iff_ne.2 hc, Bool.false_and, Bool.false_and]

section
variable {r : State} {i : LineIx} (hn : (r.gate.get i).state ≠ .disabled)
  (hb : (r.gate.get i).causes.backwash = r.backwashCause i)
include hn hb

/-- A grant leaves the line following FLOW: the filter enters ISOLATE, where no bed is washed (R66, R116). -/
theorem Reported.grant {t : State} (h : Reported r i t) {f : FilterIx}
    (hf : (t.seq.filters.get f).state = .inService) : FollowsOn r i (t.grant f) := by
  unfold State.grant
  extract_lets a b u v w
  have hv : Works (fun _ => False) t v := .of_arbiter _ (by
    unfold v State.cancelCheck
    split <;> rfl)
  have hvseq : v.seq = t.seq := (State.cancelCheck_fields _ f).1
  have hw : FollowsOn r i w := by
    unfold w State.beginMove
    extract_lets x
    have hx : Works (· = .valves f) v x := v.updFilter_works (K := (· = .valves f)) rfl _
    have hy := hx.trans (x.originate_works (K := (· = .valves f)) (x.valveEntry f)
      Stage.isolate.position rfl rfl)
    have hon := (h.toFollowsOn.later hv id).later hy nofun
    refine hon.gateBackwash hn ?_ _
    by_cases hflow : r.flowCause i = true
    · exact .inl hflow
    right
    have hfilters := h.filters.resolve_left hflow
    rw [hon.follows.kept.resolve_left hflow, hb]
    refine State.backwashCause_congr hon.worked.tables fun g hg => ?_
    have hyseq := (x.originate_gate (x.valveEntry f) Stage.isolate.position).seq
    rw [State.backwashOf, hyseq, State.backwashOf, ← hfilters g hg, ← hvseq]
    simp only [x, State.updFilter_fields, Table.get_upd]
    by_cases hgf : g = f
    · subst hgf
      rw [if_pos rfl, hvseq, hf]
      exact .inr ⟨rfl, _, rfl, rfl⟩
    · rw [if_neg hgf]
      exact .inl rfl
  exact hw.later (w.notify_works (fun _ => False) _) id

theorem Reported.arbitrate {t : State} (h : Reported r i t) : FollowsOn r i t.arbitrate := by
  rcases t.arbitrate_cases with hsame | ⟨-, f, hf, hgrant⟩
  · rw [hsame]; exact h.toFollowsOn
  · rw [hgrant]; exact h.grant hn hb (t.winner_inService f hf)

end

/-! ## The window end -/

/-- The state with another flow. -/
def State.withFlow (s : State) (F : Flow) : State := { s with flow := F }

/-- The state at the window end with the circuits judged and nothing sent or reported. -/
def State.atJudgement (s : State) : State := s.withFlow s.flowAfterWindow

theorem State.notify_withFlow (s : State) (n : Notice) (F : Flow) :
    (s.notify n).withFlow F = (s.withFlow F).notify n := by
  unfold State.notify State.withFlow
  split
  · rfl
  · rfl

/-- A fold that raises notices works on no object, whatever the flow. -/
theorem works_of_notices {α : Type} {f : State → α → State} (F : Flow)
    (h : ∀ s a, f s a = s ∨ ∃ n, f s a = s.notify n) (l : List α) (s : State) :
    Works (fun _ => False) (s.withFlow F) ((l.foldl f s).withFlow F) := by
  induction l generalizing s with
  | nil => exact .refl _ _
  | cons a l ih =>
    refine Works.trans ?_ (ih (f s a))
    rcases h s a with hsame | ⟨n, hn⟩
    · rw [hsame]; exact .refl _ _
    · rw [hn, s.notify_withFlow]
      exact State.notify_works _ _ n

/-- The notices of the judgement work on no object. -/
theorem State.windowJudged_works (s : State) : Works (fun _ => False) s.atJudgement s.windowJudged := by
  have hoverrange : Works (fun _ => False) s.atJudgement
      (s.overrangeNotices.withFlow s.flowAfterWindow) :=
    works_of_notices _ (fun t i => by
      dsimp only
      split
      · exact .inr ⟨_, rfl⟩
      · exact .inl rfl) _ s
  exact hoverrange.trans (Works.foldl _ _ fun t _ c _ => t.notify_works _ _)

theorem State.changedClasses_nodup (s : State) : s.changedClasses.Nodup :=
  (List.nodup_finRange 6).filter _

/-- A line of a changed circuit follows FLOW at the end of the window's event (R27, R64). -/
theorem State.windowEnd_follows (s : State) (i : LineIx)
    (hc : (s.tables.lines.get i).circuit ∈ s.changedClasses) (hn : (s.gate.get i).state ≠ .disabled)
    (hb : (s.gate.get i).causes.backwash = s.backwashCause i) :
    FollowsOn s.atJudgement i s.windowEnd := by
  rw [s.windowEnd_eq]
  exact Reported.arbitrate (r := s.atJudgement) hn hb
    (State.reports_reported (r := s.atJudgement) hn s.windowJudged_works s.changedClasses_nodup hc)

end Sys2Proof.Machine
end

section
/-!
PROOFS. The window end (R19-R27, R64, R124): the judgement of the circuits, the notices of the changed classes,
the lines that none of it reaches, and the aborts of a circuit that is starved.
-/

namespace Sys2Proof.Machine

open Sys2Proof.Safety Sys2Proof.Claims

/-! ## What the window end works on -/

theorem State.arbitrate_works {K : PlantObject → Prop} (s : State)
    (h : ∀ f x, grantOf s.tables f x → K x) : Works K s s.arbitrate := by
  rcases s.arbitrate_cases with hsame | ⟨-, f, -, hgrant⟩
  · rw [hsame]; exact .refl K s
  · rw [hgrant]; exact (s.grant_works f).mono (h f)

/-- The window end works on the objects of the changed circuits and on those of a filter granted. -/
theorem State.windowEnd_works {K : PlantObject → Prop} (s : State)
    (hreports : ∀ c ∈ s.changedClasses, ∀ x, objectsOf s.tables c x → K x)
    (hgrant : ∀ f x, grantOf s.tables f x → K x) : Works K s.atJudgement s.windowEnd := by
  have hjudged : Works K s.atJudgement s.windowJudged := s.windowJudged_works.mono fun _ hx => hx.elim
  have hfold : Works K s.atJudgement (s.changedClasses.foldl State.reportClass s.windowJudged) := by
    refine hjudged.trans (Works.foldl _ _ fun t ht c hc => (t.reportClass_works c).mono fun x hx => ?_)
    rw [ht, hjudged.tables] at hx
    exact hreports c hc x hx
  rw [s.windowEnd_eq]
  refine hfold.trans (State.arbitrate_works _ fun f x hx => hgrant f x ?_)
  rw [hfold.tables] at hx
  exact hx

theorem State.windowEnd_worked (s : State) : Worked s.atJudgement s.windowEnd :=
  s.windowEnd_works (fun _ _ _ _ => trivial) fun _ _ _ => trivial

theorem State.windowEnd_flow (s : State) : s.windowEnd.flow = s.flowAfterWindow :=
  s.windowEnd_worked.flow

theorem State.windowEnd_changed (s : State) (c : CircuitIx) :
    c ∈ s.changedClasses ↔ s.windowEnd.flowClass c ≠ s.flowClass c := by
  rw [s.mem_changedClasses, State.flowClass, s.windowJudged_flow, State.flowClass, State.flowClass,
    s.windowEnd_flow]

/-- A line that is no COAG line, of a circuit whose class stands, stands (R27, R66). -/
theorem State.windowEnd_line (s : State) (i : LineIx) (hk : (s.tables.lines.get i).kind ≠ .coag)
    (hc : s.windowEnd.flowClass (s.tables.lines.get i).circuit =
      s.flowClass (s.tables.lines.get i).circuit) : s.windowEnd.gate.get i = s.gate.get i := by
  have hnot : (s.tables.lines.get i).circuit ∉ s.changedClasses := fun h =>
    (s.windowEnd_changed _).1 h hc
  refine (s.windowEnd_works (K := fun x => x ≠ .line i) (fun c hc x hx e => ?_)
    fun f x hx e => ?_).line i fun h => h rfl
  · subst e
    exact hnot (hx ▸ hc)
  · subst e
    exact hk hx.1

/-! ## The judgement -/

theorem State.flowAfterWindow_input (s : State) (i : InputIx) :
    s.flowAfterWindow.inputs.get i = (s.flow.inputs.get i).endWindow := by
  simp [State.flowAfterWindow]

/-- The flow with the window's counts taken (R19, R20). -/
def State.countsTaken (s : State) : Flow :=
  { s.flow with windowSeconds := 0, inputs := s.flow.inputs.mapIdx fun _ x => x.endWindow }

/-- What the classes are measured and judged by (R24-R26). -/
theorem State.flowAfterWindow_circuit (s : State) (c : CircuitIx)
    (h : (s.tables.circuits.get c).enabled = true) :
    let sum := ((List.finRange 8).map fun i =>
      if s.tables.flowInputs.get i = some c ∧ (s.flow.inputs.get i).windowCount < 4095
      then (s.flow.inputs.get i).windowCount else 0).sum
    let old := s.flow.circuits.get c
    let m := (s.tables.circuits.get c).measure sum
    let j := old.flowClass.judge old.rising m
    s.flowAfterWindow.circuits.get c =
      { old.withClass j.1 with flowSum := sum, measured := m, rising := j.2 } := by
  have hsum : (s.withFlow s.countsTaken).flowSum c = ((List.finRange 8).map fun i =>
      if s.tables.flowInputs.get i = some c ∧ (s.flow.inputs.get i).windowCount < 4095
      then (s.flow.inputs.get i).windowCount else 0).sum := by
    unfold State.flowSum
    refine congrArg List.sum (List.map_congr_left fun i _ => ?_)
    have hinput : (s.withFlow s.countsTaken).flow.inputs.get i = (s.flow.inputs.get i).endWindow := by
      simp [State.withFlow, State.countsTaken]
    dsimp only
    rw [hinput]
    refine if_congr (and_congr Iff.rfl ?_) rfl rfl
    exact decide_eq_false_iff_not.trans not_le
  have hcircuit : s.flowAfterWindow.circuits.get c =
      (s.withFlow s.countsTaken).windowCircuit c (s.flow.circuits.get c) := by
    simp [State.flowAfterWindow, State.withFlow, State.countsTaken]
  have henabled : ¬ (s.tables.circuits.get c).enabled = false := by rw [h]; nofun
  rw [hcircuit, State.windowCircuit, hsum]
  exact if_neg henabled

/-- The class that a sum shows (R24). -/
theorem CircuitCfg.measure_table (c : CircuitCfg) (sum : Nat) :
    (sum = 0 → c.measure sum = .none) ∧
    (0 < sum → c.fullThreshold ≤ sum → c.measure sum = .full) ∧
    (0 < sum → sum < c.fullThreshold → c.reducedThreshold ≤ sum → c.measure sum = .reduced) ∧
    (0 < sum → sum < c.fullThreshold → sum < c.reducedThreshold → c.measure sum = .low) := by
  unfold CircuitCfg.measure
  refine ⟨fun h => if_pos h, fun h hfull => ?_, fun h hfull hreduced => ?_, fun h hfull hreduced => ?_⟩
  · rw [if_neg h.ne', if_pos hfull]
  · rw [if_neg h.ne', if_neg (not_le.2 hfull), if_pos hreduced]
  · rw [if_neg h.ne', if_neg (not_le.2 hfull), if_neg (not_le.2 hreduced)]

theorem FlowClass.height_injective {a b : FlowClass} (h : a.height = b.height) : a = b := by
  match a, b, h with
  | .full, .full, _ => rfl
  | .reduced, .reduced, _ => rfl
  | .low, .low, _ => rfl
  | .none, .none, _ => rfl

/-- A class falls at once, and rises at the second window that shows it (R25, R26). -/
theorem FlowClass.judge_table (now m : FlowClass) (rising : Option FlowClass) :
    (m.height ≤ now.height → now.judge rising m = (m, Option.none)) ∧
    (now.height < m.height → rising = Option.none → now.judge rising m = (now, some m)) ∧
    (∀ r, now.height < m.height → rising = some r →
      now.judge rising m = (if r.height ≤ m.height then r else m, Option.none)) := by
  unfold FlowClass.judge FlowClass.lower
  refine ⟨fun h => ?_, fun h hr => ?_, fun r h hr => ?_⟩
  · by_cases hlt : m.height < now.height
    · rw [if_pos hlt]
    · have hsame : m = now := FlowClass.height_injective (by omega)
      rw [if_neg hlt, if_pos hsame, hsame]
  · rw [if_neg (by omega), if_neg (by rintro rfl; omega), hr]
  · rw [if_neg (by omega), if_neg (by rintro rfl; omega), hr]

theorem Circuit.withClass_fields (x : Circuit) (m : FlowClass) :
    (x.withClass m).flowClass = m ∧ (x.withClass m).circulation = x.circulation := by
  unfold Circuit.withClass
  split
  · exact ⟨rfl, rfl⟩
  · exact ⟨rfl, rfl⟩

/-! ## The notices -/

theorem State.flowChange_flow (s : State) (c : CircuitIx) (v : Nat) : (s.flowChange c v).flow = s.flow :=
  (s.notify_quiet _).frame.flow

/-- Of each circuit of a list FLOW_CHANGE is raised with its class and its sum. -/
theorem State.flowChanges_raised (s : State) {F : Flow} (hF : s.flow = F) {l : List CircuitIx}
    (hl : l.Nodup) {c : CircuitIx} (hc : c ∈ l) :
    Raised (l.foldl (fun t c => t.flowChange c (t.flow.circuits.get c).flowSum) s)
      ⟨.flowChange, .circuit, c.val + 1, (F.circuits.get c).flowClass.cause, (F.circuits.get c).flowSum⟩ := by
  refine foldl_at (P := fun t => t.flow = F) (Q := fun t => Raised t ⟨.flowChange, .circuit, c.val + 1,
      (F.circuits.get c).flowClass.cause, (F.circuits.get c).flowSum⟩) hc hl
    (fun t d _ h => (t.flowChange_flow d _).trans h) (fun t h => ?_)
    (fun t d _ h => State.notify_keeps_raised h _) hF
  rw [← h]
  exact t.notify_raised _

/-- FLOW_CHANGE of each changed circuit is raised with the class and the sum that the judgement gave (R27). -/
theorem State.windowEnd_raises (s : State) {c : CircuitIx} (hc : c ∈ s.changedClasses) :
    Raised s.windowEnd ⟨.flowChange, .circuit, c.val + 1, (s.windowEnd.flowClass c).cause,
      (s.windowEnd.flow.circuits.get c).flowSum⟩ := by
  have hjudged : Raised s.windowJudged ⟨.flowChange, .circuit, c.val + 1,
      (s.flowAfterWindow.circuits.get c).flowClass.cause, (s.flowAfterWindow.circuits.get c).flowSum⟩ := by
    obtain ⟨u, hu⟩ : ∃ u, u = s.overrangeNotices.withFlow s.flowAfterWindow := ⟨_, rfl⟩
    have hfold : s.windowJudged =
        s.changedClasses.foldl (fun t c => t.flowChange c (t.flow.circuits.get c).flowSum) u := by
      rw [hu]; rfl
    rw [hfold]
    exact u.flowChanges_raised (by rw [hu]; rfl) s.changedClasses_nodup hc
  have hkept : ∀ n, Raised s.windowJudged n → Raised s.windowEnd n := by
    have hworked : Worked s.windowJudged (s.changedClasses.foldl State.reportClass s.windowJudged) :=
      Works.foldl _ _ fun t _ d _ => (t.reportClass_works d).worked
    rw [s.windowEnd_eq]
    exact (hworked.trans (State.arbitrate_works _ fun _ _ _ => trivial)).raised
  rw [State.flowClass, s.windowEnd_flow]
  exact hkept _ hjudged

end Sys2Proof.Machine
end

section
/-!
PROOFS. The abort of a backwash on a circuit that is starved (R124, R125, R127): the one filter in BACKWASH enters
RETURN, and no other report and no grant reaches it.
-/

namespace Sys2Proof.Machine

open Sys2Proof.Safety Sys2Proof.Claims

/-- The lines. -/
def linesOnly : PlantObject → Prop
  | .line _ => True
  | .valves _ | .pump => False

theorem linesOnly_of_lines {T : Tables} {c : CircuitIx} {x : PlantObject} (h : linesOf T c x) :
    linesOnly x := by
  cases x with
  | line i => trivial
  | valves f => exact h
  | pump => exact h

/-! ## A move to RETURN -/

/-- A move of the valves begins. -/
theorem State.beginMove_valves (s : State) (f : FilterIx) (b : Backwash) (v : Nat) :
    (s.beginMove f b .valves v).backwashOf f =
        some { b with step := .move .valves v (s.tables.filters.get f).travelLimit } ∧
      ((s.beginMove f b .valves v).seq.filters.get f).unrinsed = (s.seq.filters.get f).unrinsed := by
  have hseq : (s.beginMove f b .valves v).seq = (s.updFilter f fun q => { q with
      state := .backwash { b with step := .move .valves v (s.tables.filters.get f).travelLimit } }).seq := by
    unfold State.beginMove
    exact (State.gateBackwash_gate _ _).seq.trans (State.originate_gate _ _ _).seq
  rw [State.backwashOf, hseq]
  simp only [State.updFilter_fields, Table.get_upd_self, FilterState.backwash?, and_self]

/-- Its command waits for the valves (R117). -/
theorem State.beginMove_offers {r s : State} (h : Worked r s) (f : FilterIx) (b : Backwash) (v : Nat) :
    Offers r (s.beginMove f b .valves v) (r.valveEntry f) v 21 := by
  unfold State.beginMove
  extract_lets t
  have ht : Worked r t := h.trans (s.updFilter_works trivial _)
  have hoffers := ht.offers (.valves f) v
  have hu := ht.trans (t.originate_works (x := .valves f) (t.valveEntry f) v rfl trivial)
  exact (State.gateBackwash_works _ _).offers_later (x := .valves f) hu.tables hoffers id

/-- A wetted bed that is not rinsed is marked as the stage RETURN is entered (R127). -/
theorem State.enterReturn_eq (s : State) (f : FilterIx) (b : Backwash) (c : AbortCause) (g : Stage) :
    s.enterStage f { b with abort := some (c, g) } .return =
      (if b.wetted = true ∧ b.rinsed = false then s.unrinsedNotice f c.cause g else s).beginMove f
        { b with stage := .return, abort := some (c, g) } .valves 1 := by
  unfold State.enterStage
  cases b with
  | mk stage step abort wetted rinsed elapsed =>
    cases wetted <;> cases rinsed <;> rfl

/-! ## The abort -/

/-- The pump is stopped, if it runs (R125). -/
def State.pumpStopped (s : State) : State :=
  if s.seq.pumpRun then
    ((s.setPb false).setPump false).originate ((s.setPb false).setPump false).pumpEntry 0
  else s

theorem State.pumpStopped_works {K : PlantObject → Prop} (s : State) (hp : K .pump) :
    Works K s s.pumpStopped := by
  unfold State.pumpStopped
  split
  · exact s.stopPump_works hp 0
  · exact .refl K s

/-- PB and the pump are off, where PB is on with the pump only. -/
theorem State.pumpStopped_off (s : State) (h : s.pins.pb = true → s.seq.pumpRun = true) :
    s.pumpStopped.pins.pb = false ∧ s.pumpStopped.seq.pumpRun = false := by
  unfold State.pumpStopped
  split
  · have g := State.originate_gate ((s.setPb false).setPump false)
      ((s.setPb false).setPump false).pumpEntry 0
    exact ⟨g.pb, by rw [g.seq]; rfl⟩
  · rename_i hrun
    exact ⟨by simpa using mt h hrun, by simpa using hrun⟩

theorem Works.pumpStopped_offers {K : PlantObject → Prop} {r s : State} (h : Works K r s)
    (hrun : s.seq.pumpRun = true) : Offers r s.pumpStopped r.pumpEntry 0 21 := by
  have hoff : Worked s ((s.setPb false).setPump false) :=
    .of_ports ((s.setPb_wash _).trans (State.setPump_wash _ _)).same (fun _ _ => rfl) (fun _ _ => rfl)
      (fun _ _ => id) (fun _ _ => rfl) fun hn => absurd trivial hn
  unfold State.pumpStopped
  rw [if_pos hrun]
  exact (h.worked.trans hoff).offers .pump 0

/-- An abort that is not the supervisor's, before RETURN, enters RETURN with the pump stopped (R125). -/
theorem State.abort_eq (s : State) {f : FilterIx} {b : Backwash} {c : AbortCause}
    (hb : s.backwashOf f = some b) (hstage : b.stage ≠ .return) (habort : b.abort = none)
    (hc : c ≠ .supervisorAbort) :
    s.abort f c = s.pumpStopped.enterStage f { b with abort := some (c, b.stage) } .return := by
  have hreturn : (if c = .supervisorAbort ∧ (b.stage = .wash ∨ b.stage = .settle) then Stage.rinse
      else .return) = .return := if_neg fun h => hc h.1
  unfold State.abort
  rw [hb]
  dsimp only
  rw [if_neg hstage, habort]
  dsimp only
  rw [hreturn]
  rfl

section
variable {r t : State} {f : FilterIx} {b : Backwash}

/-- What the abort of a backwash comes to stands while the lines are worked on. -/
theorem abortsToReturn_later {c : AbortCause} {u : State} (h : AbortsToReturn r t f b c 21)
    (ht : t.tables = r.tables) (k : Works linesOnly t u) : AbortsToReturn r u f b c 21 := by
  obtain ⟨hbackwash, hpb, hrun, ⟨hmarked, hclean⟩, hvalves, hpump⟩ := h
  have hfilter := k.filter f id
  refine ⟨(k.backwashOf f id).trans hbackwash, (k.pump id).1.trans hpb, (k.pump id).2.trans hrun,
    ⟨fun hw hr => ?_, fun hw => ?_⟩, k.offers_later (x := .valves f) ht hvalves id,
    fun hp => k.offers_later (x := .pump) ht (hpump hp) id⟩
  · obtain ⟨hflag, hraised⟩ := hmarked hw hr
    exact ⟨by rw [hfilter]; exact hflag, k.raised _ hraised⟩
  · rw [hfilter]; exact hclean hw

/-- An abort that is not the supervisor's, before RETURN, sends the filter to RETURN (R125). -/
theorem State.abort_returns {c : AbortCause} (h : Works linesOnly r t) (hb : t.backwashOf f = some b)
    (hstage : b.stage ≠ .return) (habort : b.abort = none) (hc : c ≠ .supervisorAbort)
    (hpb : r.pins.pb = true → r.seq.pumpRun = true) :
    AbortsToReturn r (t.abort f c) f b c 21 := by
  obtain ⟨hpbs, hruns⟩ := h.pump id
  obtain ⟨u, hu⟩ : ∃ u, u = t.pumpStopped := ⟨_, rfl⟩
  have hoff : u.pins.pb = false ∧ u.seq.pumpRun = false := by
    rw [hu]
    exact t.pumpStopped_off (by rw [hpbs, hruns]; exact hpb)
  have htu : Works (· = .pump) t u := by rw [hu]; exact t.pumpStopped_works rfl
  have hru : Worked r u := h.worked.trans htu.worked
  have hpump : r.seq.pumpRun = true → Offers r u r.pumpEntry 0 21 := by
    rw [hu, ← hruns]
    exact h.worked.pumpStopped_offers
  have hfilter : u.seq.filters.get f = r.seq.filters.get f := by
    rw [htu.filter f nofun, h.filter f id]
  rw [t.abort_eq hb hstage habort hc, ← hu, State.enterReturn_eq]
  obtain ⟨w, hw⟩ : ∃ w, w = if b.wetted = true ∧ b.rinsed = false
    then u.unrinsedNotice f c.cause b.stage else u := ⟨_, rfl⟩
  have huw : Works (· = .valves f) u w := by
    rw [hw]
    split
    · exact u.unrinsedNotice_works (K := (· = .valves f)) rfl _ _
    · exact .refl _ u
  have hrw : Worked r w := hru.trans huw.worked
  rw [← hw]
  obtain ⟨hmoved, hflag⟩ := w.beginMove_valves f
    { b with stage := .return, abort := some (c, b.stage) } 1
  have hend := w.beginMove_works (K := (· ≠ .pump)) (f := f) nofun (fun x hx e => by subst e; exact hx)
    { b with stage := .return, abort := some (c, b.stage) } 1
  obtain ⟨hpbw, hrunw⟩ := huw.pump nofun
  obtain ⟨hpbe, hrune⟩ := hend.pump fun hn => hn rfl
  refine ⟨?_, hpbe.trans (hpbw.trans hoff.1), hrune.trans (hrunw.trans hoff.2),
    ⟨fun hwet hrin => ?_, fun hclean => ?_⟩, State.beginMove_offers hrw f _ 1, fun hp =>
      hend.offers_later (x := .pump) hrw.tables
        (huw.offers_later (x := .pump) hru.tables (hpump hp) nofun) fun hn => hn rfl⟩
  · rw [hmoved, hrw.tables]
  · rw [if_pos ⟨hwet, hrin⟩] at hw
    refine ⟨?_, hend.raised _ ?_⟩
    · rw [hflag, hw, State.unrinsedNotice]
      simp
    · rw [hw]
      exact State.notify_raised _ _
  · have hnot : ¬ (b.wetted = true ∧ b.rinsed = false) := by
      rintro ⟨hwet, hrin⟩
      rw [hwet, hrin] at hclean
      rcases hclean with hclean | hclean
      · cases hclean
      · cases hclean
    rw [if_neg hnot] at hw
    rw [hflag, hw, hfilter]

end

/-! ## The one filter in BACKWASH -/

theorem State.abort_none (s : State) {f : FilterIx} (c : AbortCause) (h : s.backwashOf f = none) :
    s.abort f c = s := by
  unfold State.abort
  rw [h]

theorem State.abort_return (s : State) {f : FilterIx} {b : Backwash} (c : AbortCause)
    (h : s.backwashOf f = some b) (hb : b.stage = .return) : s.abort f c = s := by
  unfold State.abort
  rw [h]
  exact if_pos hb

/-- A circuit none of whose filters is in BACKWASH has nothing to abort (R124). -/
theorem State.seqFlow_idle (s : State) (c : CircuitIx)
    (h : ∀ f, (s.tables.filters.get f).circuit = c → s.backwashOf f = none) : s.seqFlow c = s := by
  unfold State.seqFlow State.forFilters
  split
  · refine List.foldlRecOn (motive := fun t => t = s) _ _ rfl fun t ht f _ => ?_
    subst ht
    split
    · exact t.abort_none _ (h f (by assumption))
    · rfl
  · rfl

/-- An abort reaches the backwash of no other filter. -/
theorem State.abort_others (s : State) {f g : FilterIx} (c : AbortCause) (h : g ≠ f) :
    (s.abort f c).backwashOf g = s.backwashOf g := by
  have hworks := s.abort_works (K := fun x => ∀ g, x = .valves g → g = f) (f := f)
    (fun g e => by injection e with e; exact e.symm)
    (fun x hx g e => by subst e; exact hx.elim) nofun c
  exact hworks.backwashOf g fun e => h (e g rfl)

/-- Where one filter alone is in BACKWASH, the report of its starved circuit aborts it (R124). -/
theorem State.seqFlow_one (s : State) {f : FilterIx}
    (hstarved : (s.flowClass (s.tables.filters.get f).circuit).starved = true)
    (h : ∀ g, g ≠ f → s.backwashOf g = none) :
    s.seqFlow (s.tables.filters.get f).circuit = s.abort f .starved := by
  unfold State.seqFlow State.forFilters
  rw [if_pos hstarved]
  refine foldl_at (P := fun t => t = s) (Q := fun t => t = s.abort f .starved) (List.mem_finRange f)
    (List.nodup_finRange 8) (fun t g hg ht => ?_) (fun t ht => ?_) (fun t g hg ht => ?_) rfl
  · subst ht
    split
    · exact t.abort_none _ (h g hg)
    · rfl
  · subst ht
    exact if_pos rfl
  · subst ht
    split
    · exact State.abort_none _ _ (s.abort_others .starved hg ▸ h g hg)
    · rfl

/-- An abort leaves the Arbiter alone (R125). -/
theorem State.enterStage_arbiter (s : State) (f : FilterIx) (b : Backwash) (g : Stage) :
    (s.enterStage f b g).arbiter = s.arbiter := by
  unfold State.enterStage State.beginMove
  extract_lets b' t u
  have ht : t.arbiter = s.arbiter := by
    unfold t
    split
    · simp only [State.unrinsedNotice, State.notify_fields, State.updFilter_fields]
    · rfl
  exact (State.gateBackwash_gate _ _).arbiter.trans ((u.originate_gate _ _).arbiter.trans ht)

theorem State.abort_arbiter (s : State) (f : FilterIx) (c : AbortCause) :
    (s.abort f c).arbiter = s.arbiter := by
  unfold State.abort
  split
  · rfl
  extract_lets u t
  split
  · rfl
  have ht : t.arbiter = s.arbiter := by
    unfold t
    split
    · exact (u.originate_gate _ _).arbiter
    · rfl
  split
  · exact (t.enterStage_arbiter _ _ _).trans ht
  split
  · exact (t.enterStage_arbiter _ _ _).trans ht
  · exact ht

/-- What the report of a starved circuit makes of the backwash `b` of its filter `f` (R124, R125). -/
def Starved (r : State) (f : FilterIx) (b : Backwash) (t : State) : Prop :=
  (b.stage = .return → t.backwashOf f = some b) ∧
    (b.stage ≠ .return → b.abort = none → AbortsToReturn r t f b .starved 21)

/-- In `t` filter `f` alone is in BACKWASH, and holds the grant. -/
structure WashesAlone (r : State) (f : FilterIx) (t : State) : Prop where
  tables : t.tables = r.tables
  busy : t.arbiter.busy = some f
  others : ∀ g, g ≠ f → t.backwashOf g = none

/-- The report of another circuit works on lines only. -/
theorem WashesAlone.reportClass {r t : State} {f : FilterIx} (h : WashesAlone r f t) {d : CircuitIx}
    (hd : d ≠ (r.tables.filters.get f).circuit) :
    Works linesOnly t (t.reportClass d) ∧ WashesAlone r f (t.reportClass d) := by
  have hw := (t.gateFlow_works d).mono fun _ => linesOnly_of_lines
  have hidle : t.reportClass d = t.gateFlow d := by
    refine State.seqFlow_idle _ d fun g hg => ?_
    rw [hw.backwashOf g id]
    refine h.others g fun e => ?_
    subst e
    rw [hw.tables, h.tables] at hg
    exact hd hg.symm
  rw [hidle]
  exact ⟨hw, hw.tables.trans h.tables, by rw [(t.gateFlow_gate d).arbiter]; exact h.busy,
    fun g hg => (hw.backwashOf g id).trans (h.others g hg)⟩

theorem Starved.later {r t u : State} {f : FilterIx} {b : Backwash} (h : Starved r f b t)
    (ht : t.tables = r.tables) (k : Works linesOnly t u) : Starved r f b u :=
  ⟨fun hb => (k.backwashOf f id).trans (h.1 hb), fun hb hn => abortsToReturn_later (h.2 hb hn) ht k⟩

/-- The report of the filter's own circuit, starved, aborts the backwash, where lines only were worked on before
(R124). -/
theorem WashesAlone.reportStarved {r t : State} {f : FilterIx} {b : Backwash} (h : WashesAlone r f t)
    (hw : Works linesOnly r t) (hb : r.backwashOf f = some b)
    (hstarved : (r.flowClass (r.tables.filters.get f).circuit).starved = true)
    (hpb : r.pins.pb = true → r.seq.pumpRun = true) :
    Starved r f b (t.reportClass (r.tables.filters.get f).circuit) ∧
      WashesAlone r f (t.reportClass (r.tables.filters.get f).circuit) := by
  obtain ⟨u, hu⟩ : ∃ u, u = t.gateFlow (r.tables.filters.get f).circuit := ⟨_, rfl⟩
  have htu : Works linesOnly t u := by
    rw [hu]
    exact (t.gateFlow_works _).mono fun _ => linesOnly_of_lines
  have hru := hw.trans htu
  have hbu : u.backwashOf f = some b := (hru.backwashOf f id).trans hb
  have hothers : ∀ g, g ≠ f → u.backwashOf g = none := fun g hg =>
    (htu.backwashOf g id).trans (h.others g hg)
  have hreport : t.reportClass (r.tables.filters.get f).circuit = u.abort f .starved := by
    have hone := u.seqFlow_one (f := f) (by rw [hru.flowClass, hru.tables]; exact hstarved) hothers
    rw [hru.tables] at hone
    rw [State.reportClass, ← hu, hone]
  rw [hreport]
  refine ⟨⟨fun hs => ?_, fun hs ha => State.abort_returns hru hbu hs ha nofun hpb⟩,
    (u.abort_wash f .starved).tables.trans hru.tables, ?_, fun g hg => ?_⟩
  · rw [u.abort_return _ hbu hs]; exact hbu
  · rw [u.abort_arbiter, hu, (t.gateFlow_gate _).arbiter]; exact h.busy
  · rw [u.abort_others .starved hg]; exact hothers g hg

/-- The whole window end aborts the backwash of a filter whose circuit has become starved (R124). -/
theorem State.windowEnd_starves (s : State) {f : FilterIx} {b : Backwash} (h : BackwashOk s)
    (hb : s.backwashOf f = some b) (hc : (s.tables.filters.get f).circuit ∈ s.changedClasses)
    (hstarved : (s.windowEnd.flowClass (s.tables.filters.get f).circuit).starved = true) :
    Starved s.atJudgement f b s.windowEnd := by
  have hjudged : Works linesOnly s.atJudgement s.windowJudged :=
    s.windowJudged_works.mono fun _ hx => hx.elim
  have hbusy : s.windowJudged.arbiter.busy = some f := by
    have harbiter : s.windowJudged.arbiter = s.arbiter := s.windowJudged_keeps.frame.arbiter
    rw [harbiter]
    exact (h.1 f).1 (by rw [hb]; rfl)
  have halone : WashesAlone s.atJudgement f s.windowJudged :=
    ⟨hjudged.tables, hbusy, fun g hg =>
      (hjudged.backwashOf g id).trans ((Washing.of h hb).others hg)⟩
  rw [s.windowEnd_worked.flowClass] at hstarved
  rw [s.windowEnd_eq]
  obtain ⟨t, ht⟩ : ∃ t, t = s.changedClasses.foldl State.reportClass s.windowJudged := ⟨_, rfl⟩
  have hend : Starved s.atJudgement f b t ∧ WashesAlone s.atJudgement f t := by
    rw [ht]
    refine foldl_at (P := fun u => Works linesOnly s.atJudgement u ∧ WashesAlone s.atJudgement f u)
      (Q := fun u => Starved s.atJudgement f b u ∧ WashesAlone s.atJudgement f u) hc
      s.changedClasses_nodup (fun u d hd hu => ?_) (fun u hu => ?_) (fun u d hd hu => ?_) ⟨hjudged, halone⟩
    · obtain ⟨hw, ha⟩ := hu.2.reportClass hd
      exact ⟨hu.1.trans hw, ha⟩
    · exact hu.2.reportStarved hu.1 hb hstarved fun hp => (h.2.2 hp).1
    · obtain ⟨hw, ha⟩ := hu.2.reportClass hd
      exact ⟨hu.1.later hu.2.tables hw, ha⟩
  rw [← ht]
  have hfree : t.arbitrate = t := by
    unfold State.arbitrate
    rw [hend.2.busy]
  rw [hfree]
  exact hend.1

end Sys2Proof.Machine
end

section
/-!
PROOFS. The window end as the statement has it (R19, R20, R23-R27, R64, R124).
-/

namespace Sys2Proof.Machine

open Sys2Proof.Safety Sys2Proof.Claims

/-- The lines of a changed circuit take FLOW, or lose it (R64). -/
theorem State.windowEnd_lines (s : State) (i : LineIx)
    (hc : (s.tables.lines.get i).circuit ∈ s.changedClasses) (hn : (s.gate.get i).state ≠ .disabled)
    (hb : (s.gate.get i).causes.backwash = s.backwashCause i) :
    let new := (s.windowEnd.gate.get i).causes
    new = { (s.gate.get i).causes with flow := new.flow, backwash := new.backwash } ∧
      (new.flow = true ↔ (s.windowEnd.flowClass (s.tables.lines.get i).circuit = .low ∨
        s.windowEnd.flowClass (s.tables.lines.get i).circuit = .none)) ∧
      LineFollows s s.windowEnd i := by
  obtain ⟨hw, hf⟩ := s.windowEnd_follows i hc hn hb
  have hflow : (s.windowEnd.gate.get i).causes.flow =
      (s.windowEnd.flowClass (s.tables.lines.get i).circuit).starved := by
    rw [hf.causes, State.flowCause, hw.flowClass]
    rfl
  refine ⟨?_, ?_, hf.lineFollows hw hn⟩
  · rw [hf.causes]
    rfl
  · rw [hflow, FlowClass.starved_iff]

/-- An enabled circuit is judged by its own sum (R24-R26). -/
theorem State.windowEnd_circuit (s : State) (c : CircuitIx)
    (h : (s.tables.circuits.get c).enabled = true) :
    let x := s.windowEnd.flow.circuits.get c
    let old := s.flow.circuits.get c
    let cfg := s.tables.circuits.get c
    x.flowSum = ((List.finRange 8).map fun i =>
      if s.tables.flowInputs.get i = some c ∧ (s.flow.inputs.get i).windowCount < 4095
      then (s.flow.inputs.get i).windowCount else 0).sum ∧
    x.measured = cfg.measure x.flowSum ∧
    (x.flowClass, x.rising) = old.flowClass.judge old.rising x.measured ∧
    x.circulation = old.circulation := by
  have hcircuit := s.flowAfterWindow_circuit c h
  dsimp only at hcircuit ⊢
  rw [s.windowEnd_flow, hcircuit]
  obtain ⟨hclass, hcirculation⟩ := (s.flow.circuits.get c).withClass_fields
    ((s.flow.circuits.get c).flowClass.judge (s.flow.circuits.get c).rising
      ((s.tables.circuits.get c).measure ((List.finRange 8).map fun i =>
        if s.tables.flowInputs.get i = some c ∧ (s.flow.inputs.get i).windowCount < 4095
        then (s.flow.inputs.get i).windowCount else 0).sum)).1
  exact ⟨rfl, rfl, Prod.ext hclass rfl, hcirculation⟩

/-- Settles O34: the judgement of the circuits, and what the reports of the changed classes make of their lines and
of a backwash. -/
theorem windowEndJudgesTheCircuits : Obligations.WindowEndJudgesTheCircuits := by
  refine ⟨fun s hdue => ⟨s.windowEnd, ?_, ?_, fun i => ?_, fun c hc => ?_, fun c hc => ⟨?_, ?_, ?_⟩,
    s.windowEnd_line, fun c hc => ?_⟩, fun s hearly => ?_⟩
  · simp only [exec, execWindowEnd]
    rw [if_pos (show Config.windowSeconds ≤ s.flow.windowSeconds from hdue)]
  · rw [s.windowEnd_flow]; rfl
  · rw [s.windowEnd_flow, s.flowAfterWindow_input]
    exact ⟨rfl, rfl, rfl⟩
  · rw [s.windowEnd_flow, s.flowAfterWindow_disabled c hc]
  · exact s.windowEnd_raises ((s.windowEnd_changed c).2 hc)
  · rintro i rfl hn hb
    exact s.windowEnd_lines i ((s.windowEnd_changed _).2 hc) hn hb
  · rintro hstarved hok f b hb rfl
    exact s.windowEnd_starves hok hb ((s.windowEnd_changed _).2 hc) ((FlowClass.starved_iff _).2 hstarved)
  · obtain ⟨hsum, hmeasured, hjudged, hcirculation⟩ := s.windowEnd_circuit c hc
    obtain ⟨hnone, hfull, hreduced, hlow⟩ := (s.tables.circuits.get c).measure_table
      (s.windowEnd.flow.circuits.get c).flowSum
    obtain ⟨hfalls, hwaits, hrises⟩ := (s.flow.circuits.get c).flowClass.judge_table
      (s.windowEnd.flow.circuits.get c).measured (s.flow.circuits.get c).rising
    rw [← hmeasured] at hnone hfull hreduced hlow
    rw [← hjudged] at hfalls hwaits
    refine ⟨hsum, hnone, hfull, hreduced, hlow, fun h => Prod.mk.inj (hfalls h),
      fun h hr => Prod.mk.inj (hwaits h hr), fun r h hr => ?_, hcirculation⟩
    exact Prod.mk.inj (hjudged.trans (hrises r h hr))
  · simp only [exec, execWindowEnd]
    rw [if_neg (show ¬ Config.windowSeconds ≤ s.flow.windowSeconds from not_le.2 hearly)]

end Sys2Proof.Machine
end

section
/-!
PROOFS. The restore and the substitutes (R42, R46, R132, R133, R138): which changes of the state keep the restore
tied to STARTUP and the substitutes within their bounds.
-/

namespace Sys2Proof.Machine

open Sys2Proof.Safety Sys2Proof.Claims

/-- From `s` to `t` the restore still runs exactly in STARTUP, and substitutes keep their bounds. -/
structure BoundsKept (s t : State) : Prop where
  restore : RestoreOk s → RestoreOk t
  substitutes : RestoreOk s → SubstitutesOk s → SubstitutesOk t

/-- Where no substitute stands their bounds hold. -/
theorem substitutesOk_of_none {s : State} (h : ∀ k, (s.slots.get k).sub = none) : SubstitutesOk s :=
  fun k hk => by rw [h k] at hk; cases hk

/-- Outside SUPERVISED no substitute stands. -/
theorem sub_none_of_bounds {s : State} (h : SubstitutesOk s) (hm : s.modeNow ≠ .supervised) (k : SlotIx) :
    (s.slots.get k).sub = none := by
  by_contra hk
  exact hm (h k (Option.isSome_iff_ne_none.2 hk)).2.1

namespace BoundsKept

theorem refl (s : State) : BoundsKept s s := ⟨id, fun _ => id⟩

theorem trans {s t u : State} (h : BoundsKept s t) (k : BoundsKept t u) : BoundsKept s u :=
  ⟨k.restore ∘ h.restore, fun r b => k.substitutes (h.restore r) (h.substitutes r b)⟩

/-- A change that keeps the mode and the restore, and only ends substitutes. -/
theorem of_view {s t : State} (hmode : t.modeNow = s.modeNow)
    (hrunning : t.seq.restore.running = s.seq.restore.running)
    (hsubs : ∀ k, (t.slots.get k).sub = (s.slots.get k).sub ∨ (t.slots.get k).sub = none) :
    BoundsKept s t := by
  refine ⟨fun r => by rwa [RestoreOk, hmode, hrunning], fun _ b k hk => ?_⟩
  rcases hsubs k with hsame | hnone
  · rw [hsame] at hk ⊢
    rw [hmode]
    exact b k hk
  · rw [hnone] at hk
    cases hk

theorem of_slots {s t : State} (h : SlotsFrame s t) : BoundsKept s t :=
  of_view h.modeNow (by rw [h.restore]) h.subs

theorem of_wash {s t : State} (h : WashFrame s t) : BoundsKept s t := of_slots (.of_wash h)

theorem of_gate {s t : State} (h : GateFrame s t) : BoundsKept s t :=
  of_view h.modeNow (by rw [h.seq]) fun _ => .inl (by rw [h.slots])

theorem of_works {K : PlantObject → Prop} {s t : State} (h : Works K s t) : BoundsKept s t :=
  of_view h.modeNow (congrArg (·.seq.restore.running) h.same) fun _ => .inl (by rw [h.slots])

/-- A change that leaves the mode, the restore and the readings alone. -/
theorem of_others {s t : State} (hmode : t.mode.state = s.mode.state)
    (hrunning : t.seq.restore.running = s.seq.restore.running) (hslots : t.slots = s.slots) :
    BoundsKept s t :=
  of_view (by rw [State.modeNow, hmode, State.modeNow]) hrunning fun _ => .inl (by rw [hslots])

/-- A fold of operations that keep the bounds keeps them. -/
theorem foldl {α : Type} {f : State → α → State} (h : ∀ s a, BoundsKept s (f s a)) (l : List α)
    (s : State) : BoundsKept s (l.foldl f s) := by
  induction l generalizing s with
  | nil => exact refl s
  | cons a l ih => exact (h s a).trans (ih _)

end BoundsKept

/-! ## One second -/

theorem ModeState.tick_mode (m : ModeState) : m.tick.mode = m.mode := by
  cases m <;> rfl

/-- A second takes from a substitute's time only (R44). -/
theorem State.tick_bounds (s : State) : BoundsKept s s.tick := by
  have hmode : s.tick.modeNow = s.modeNow := s.mode.state.tick_mode
  have hrunning : s.tick.seq.restore.running = s.seq.restore.running := by
    have hrestore : s.tick.seq.restore = s.seq.restore.tick := rfl
    rw [hrestore, Restore.tick]
    split
    · rfl
    · rfl
  have hsub : ∀ k, (s.tick.slots.get k).sub =
      (s.slots.get k).sub.map fun u => { u with remaining := u.remaining - 1 } := fun k => by
    rw [s.tick_slot]
    rfl
  refine ⟨fun r => by rwa [RestoreOk, hmode, hrunning], fun _ b k hk => ?_⟩
  rw [hsub, Option.isSome_map] at hk
  obtain ⟨hslot, hsupervised, hremaining⟩ := b k hk
  refine ⟨hslot, hmode.trans hsupervised, fun u hu => ?_⟩
  rw [hsub, Option.mem_map] at hu
  obtain ⟨v, hv, rfl⟩ := hu
  exact (Nat.sub_le _ _).trans (hremaining v hv)

/-! ## The mode -/

/-- A change of mode that does not go to STARTUP leaves a restore that has ended ended (R135). -/
theorem State.changeMode_restore (s : State) (new : ModeState) (c : Cause) (hnew : new.mode ≠ .startup)
    (hrunning : s.seq.restore.running = false) : RestoreOk (s.changeMode new c) := by
  have h := s.changeMode_frame new c
  have hrestore := h.frame.restore
  have hmode : (s.changeMode new c).modeNow = new.mode := by rw [State.modeNow, h.mode]
  rw [RestoreOk, hmode, hrestore]
  exact ⟨fun hr => absurd hr (by rw [hrunning]; nofun), fun hm => absurd hm hnew⟩

/-- Where none stood, or where the new mode ends them, no substitute stands after a change of mode (R46). -/
theorem State.changeMode_subs (s : State) (new : ModeState) (c : Cause)
    (h : new.mode.dropsSubstitutes = true ∨ ∀ k, (s.slots.get k).sub = none) (k : SlotIx) :
    ((s.changeMode new c).slots.get k).sub = none := by
  have hframe := s.changeMode_frame new c
  rcases h with hdrops | hnone
  · exact hframe.ended hdrops k
  · rcases hframe.frame.subs k with hsame | hended
    · exact hsame.trans (hnone k)
    · exact hended

/-- A change of mode after the start keeps the bounds, if it ends the substitutes or none can stand before it. -/
theorem State.changeMode_bounds (s : State) (new : ModeState) (c : Cause) (hs : s.modeNow ≠ .startup)
    (hnew : new.mode ≠ .startup)
    (hends : new.mode.dropsSubstitutes = true ∨ s.modeNow ≠ .supervised) :
    BoundsKept s (s.changeMode new c) where
  restore r := s.changeMode_restore new c hnew (by simpa using mt r.1 hs)
  substitutes _ b := substitutesOk_of_none (s.changeMode_subs new c
    (hends.imp id fun hm => sub_none_of_bounds b hm))

theorem State.enterLockout_bounds (s : State) (l : LockCause) (c : Cause) (hs : s.modeNow ≠ .startup) :
    BoundsKept s (s.enterLockout l c) :=
  BoundsKept.trans (t := s.setLockout l) (.of_others rfl rfl rfl)
    (State.changeMode_bounds _ .lockout c hs nofun (.inl rfl))

theorem State.enterFallback_bounds (s : State) (c : Cause) (hs : s.modeNow ≠ .startup) :
    BoundsKept s (s.enterFallback c) := by
  unfold State.enterFallback
  extract_lets t
  have ht : BoundsKept s t := .of_others rfl rfl rfl
  split
  · exact ht.trans (t.enterLockout_bounds _ _ hs)
  · exact ht.trans (t.changeMode_bounds _ c hs nofun (.inl rfl))

/-! ## The end of the restore -/

/-- The start-up decision is a change of mode, to another than STARTUP (R138). -/
theorem State.startUpDecision_changes (s : State) :
    ∃ (t : State) (new : ModeState) (c : Cause), s.startUpDecision = t.changeMode new c ∧
      new.mode ≠ .startup ∧ t.seq = s.seq ∧ t.slots = s.slots := by
  unfold State.startUpDecision
  extract_lets r
  split
  · exact ⟨s, .lockout, _, rfl, nofun, rfl, rfl⟩
  split
  · exact ⟨s.setLockout .recoveryLimit, .lockout, _, rfl, nofun, rfl, rfl⟩
  split
  · exact ⟨s, .commission, _, rfl, nofun, rfl, rfl⟩
  split
  · exact ⟨s, .commission, _, rfl, nofun, rfl, rfl⟩
  · exact ⟨s, .hold, _, rfl, nofun, rfl, rfl⟩

/-- The restore runs in STARTUP, where no substitute stands; its completion ends it and leaves STARTUP (R133). -/
theorem State.completeRestore_bounds (s : State) (h : s.seq.restore.running = true) :
    BoundsKept s s.completeRestore := by
  obtain ⟨t, new, c, hchange, hnew, hseq, hslots⟩ := State.startUpDecision_changes { s with
    seq := { s.seq with restore := { s.seq.restore with running := false } } }
  have hcomplete : s.completeRestore = t.changeMode new c := hchange
  rw [hcomplete]
  refine ⟨fun _ => t.changeMode_restore new c hnew (by rw [hseq]), fun r b => ?_⟩
  refine substitutesOk_of_none (t.changeMode_subs new c (.inr fun k => ?_))
  rw [hslots]
  exact sub_none_of_bounds b (by rw [r.1 h]; nofun) k

theorem State.checkRestore_bounds (s : State) : BoundsKept s s.checkRestore := by
  unfold State.checkRestore
  split
  · rename_i h
    exact s.completeRestore_bounds h.1
  · exact .refl s

/-- A reset begins the restore in STARTUP with no substitute, or completes it at once (R47, R132, R133). -/
theorem State.resetPart_bounds (s : State) (cause : StartCause) : BoundsKept s (s.resetPart cause) := by
  unfold State.resetPart
  extract_lets t u
  have hrestore : RestoreOk u := ⟨fun _ => rfl, fun _ => rfl⟩
  have hsubs : SubstitutesOk u := substitutesOk_of_none fun k => by
    have hslots : u.slots = .fill ⟨⟨.absent, none⟩, none⟩ := rfl
    rw [hslots, Table.get_fill]
  have h := u.checkRestore_bounds
  exact ⟨fun _ => h.restore hrestore, fun _ _ => h.substitutes hrestore hsubs⟩

/-- The restore limit completes the restore (R133). -/
theorem State.restoreExpired_bounds (s : State) (h : s.seq.restore.running = true) :
    BoundsKept s s.restoreExpired := by
  unfold State.restoreExpired State.forFilters State.forLines
  extract_lets t u v
  have ht : WashFrame s t := .foldl (fun s f => by
    split
    · exact s.attemptExpired_wash f
    · exact .refl s) _ s
  have hu : GateFrame t u := .foldl (fun s i => by
    split
    · exact s.faultLine_gate i _ _
    · exact .refl s) _ t
  have hv : GateFrame u v := by
    unfold v
    split
    · exact u.notify_gate _
    · exact .refl u
  have hrunning : v.seq.restore.running = true := by rw [(hu.trans hv).seq, ht.restore, h]
  exact ((BoundsKept.of_wash ht).trans (.of_gate (hu.trans hv))).trans (v.completeRestore_bounds hrunning)

end Sys2Proof.Machine
end

section
/-!
PROOFS. What the operations behind single commands do to the restore and to the substitutes.
-/

namespace Sys2Proof.Machine

open Sys2Proof.Safety Sys2Proof.Claims

/-! ## Notices, answers and reports -/

theorem State.notify_bounds (s : State) (n : Notice) : BoundsKept s (s.notify n) :=
  .of_gate (s.notify_gate n)

theorem State.arbitrate_bounds (s : State) : BoundsKept s s.arbitrate := .of_wash s.arbitrate_wash

theorem State.forwardUp_bounds (s : State) (f : Frame) : BoundsKept s (s.forwardUp f) := by
  obtain ⟨-, -, -, -, hslots, -, -, -, hseq, hmode, -⟩ := s.forwardUp_fields f
  exact .of_others (by rw [hmode]) (by rw [hseq]) hslots

theorem State.forwardDown_bounds (s : State) (g : SegIx) (c : Cmd) : BoundsKept s (s.forwardDown g c) :=
  .of_others rfl rfl rfl

theorem State.updCircuit_bounds (s : State) (c : CircuitIx) (h : Circuit → Circuit) :
    BoundsKept s (s.updCircuit c h) := .of_others rfl rfl rfl

theorem State.updTables_bounds (s : State) (h : Tables → Tables) : BoundsKept s (s.updTables h) :=
  .of_others rfl rfl rfl

theorem State.evaluate_bounds (s : State) : BoundsKept s s.evaluate :=
  BoundsKept.trans (t := s.updClock fun c => { c with
      openFlags := .ofFn s.openDue
      washFlags := .ofFn s.washDue }) (.of_others rfl rfl rfl) (.of_wash s.evaluate_wash)

theorem State.reportClass_bounds (s : State) (c : CircuitIx) : BoundsKept s (s.reportClass c) :=
  .of_works (s.reportClass_works c)

theorem State.putSegState_bounds (s : State) (g : SegIx) (x : SegState) (n : Option Nat) :
    BoundsKept s ((s.putSegState g x n).reportSegment g) :=
  BoundsKept.trans (t := s.putSegState g x n) (.of_others rfl rfl rfl) (.of_wash (State.reportSegment_wash _ g))

theorem State.cutSegment_bounds (s : State) (g : SegIx) (x : SegState) (c : Cause) :
    BoundsKept s (s.cutSegment g x c) := by
  unfold State.cutSegment
  extract_lets t
  have ht : BoundsKept s t := .of_others rfl rfl rfl
  exact (ht.trans (t.notify_bounds _)).trans (.of_wash (State.reportSegment_wash _ g))

theorem State.firstUp_bounds (s : State) (g : SegIx) : BoundsKept s (s.firstUp g) := by
  unfold State.firstUp
  split
  · exact .refl s
  have hseen : ∀ x : Table 4 Bool, BoundsKept s { s with seq := { s.seq with
      restore := { s.seq.restore with seenUp := x } } } := fun _ => .of_others rfl rfl rfl
  dsimp only
  split
  · exact (hseen _).trans (.of_wash (State.offerRestore_wash _ g))
  · exact hseen _

theorem State.gatePlantStop_bounds (s : State) (on : Bool) : BoundsKept s (s.gatePlantStop on) :=
  BoundsKept.trans (t := { s with pins := { s.pins with plantStop := on } }) (.of_others rfl rfl rfl)
    (.of_gate (s.gatePlantStop_gate on))

/-! ## Frames -/

theorem State.circulationCommand_bounds (s : State) (k : Fin 48) (g : SegIx) (c : CircuitIx) (m : Cmd) :
    BoundsKept s (s.circulationCommand k g c m) := by
  unfold State.circulationCommand
  split
  · split
    · exact s.notify_bounds _
    · exact (((BoundsKept.of_gate (s.gateCirculation_gate c true)).trans
        (State.updCircuit_bounds _ c _)).trans (State.forwardDown_bounds _ g m)).trans
        (State.arbitrate_bounds _)
  split
  · exact (((s.forwardDown_bounds g m).trans (State.updCircuit_bounds _ c _)).trans
      (.of_gate (State.gateCirculation_gate _ c false))).trans (State.arbitrate_bounds _)
  · exact s.notify_bounds _

theorem State.lineCommand_bounds (s : State) (k : Fin 48) (g : SegIx) (i : LineIx) (c : Cmd) :
    BoundsKept s (s.lineCommand k g i c) := by
  rcases s.lineCommand_cases k g i c with h | ⟨t, v, u, ht, hu, hcommand⟩
  · exact .of_gate h
  · rw [hcommand]
    exact ((BoundsKept.of_gate ht).trans (t.forwardDown_bounds _ _)).trans (.of_gate hu)

theorem State.admitByEntry_bounds (s : State) (k : Fin 48) (g : SegIx) (m : Cmd) :
    BoundsKept s (s.admitByEntry k g m) := by
  unfold State.admitByEntry
  extract_lets e
  have owned : BoundsKept s (if s.modeNow = .commission then s.forwardDown g m
      else s.refuse .entry k.val .owned m.value) := by
    split
    · exact .of_others rfl rfl rfl
    · exact s.notify_bounds _
  cases e.object with
  | doseLine =>
    dsimp only
    split
    · exact s.lineCommand_bounds k g _ m
    · exact .refl s
  | filterValves => exact owned
  | backwashPump => exact owned
  | circPump =>
    dsimp only
    split
    · exact s.circulationCommand_bounds k g _ m
    · exact .refl s
  | pass => exact .of_others rfl rfl rfl
  | closed => exact s.notify_bounds _

theorem State.stationCommand_bounds (s : State) (m : Cmd) : BoundsKept s (s.stationCommand m) := by
  unfold State.stationCommand
  extract_lets key
  split
  · exact s.notify_bounds _
  split
  · exact s.notify_bounds _
  split
  · exact s.notify_bounds _
  split
  · exact s.admitByEntry_bounds _ _ m
  split
  · exact .of_others rfl rfl rfl
  · exact s.notify_bounds _

/-- A slot's own substitute, or none, is written back to it. -/
theorem State.putSlot_bounds (s : State) (k : SlotIx) (x : Slot)
    (h : x.sub = (s.slots.get k).sub ∨ x.sub = none) : BoundsKept s (s.putSlot k x) := by
  refine .of_view rfl rfl fun j => ?_
  simp only [State.putSlot_fields, Table.get_set]
  split
  · rename_i hj
    rw [hj]
    exact h
  · exact .inl rfl

theorem State.applySample_bounds (s : State) (k : SlotIx) (v : Nat) (q : Byte) :
    BoundsKept s (s.applySample k v q) := by
  unfold State.applySample
  extract_lets x r t u
  have ht : BoundsKept s t := s.putSlot_bounds k _ (.inl rfl)
  have hu : BoundsKept t u := by
    unfold u
    split
    · exact .refl t
    · exact t.notify_bounds _
    · exact .refl t
  split
  · exact ht
  · exact (ht.trans hu).trans (.of_wash (u.reportSlot_wash k _))

theorem State.lineEcho_bounds (s : State) (i : LineIx) (v : Nat) : BoundsKept s (s.lineEcho i v) := by
  unfold State.lineEcho
  extract_lets l t
  have ht : GateFrame s t := s.putLine_gate i _
  split
  · exact .of_gate ht
  split
  · split
    · exact .of_gate (s.putLine_gate i _)
    · exact .of_gate ht
  split
  · exact .of_gate ht
  · exact .of_gate (ht.trans (t.faultLine_gate i _ v))

theorem State.valveEcho_bounds (s : State) (f : FilterIx) (v : Nat) : BoundsKept s (s.valveEcho f v) := by
  unfold State.valveEcho
  extract_lets q t
  have ht : WashFrame s t := s.updFilter_wash f _
  split
  · split
    · split
      · exact .of_wash (ht.trans (t.moveConfirmed_wash f _ _ v))
      · exact .of_wash ht
    · exact .of_wash ht
    · exact .of_wash ht
  · split
    · exact .of_wash ((ht.trans (t.updFilter_wash f _)).trans (State.putFilterState_wash _ f _))
    · exact .of_wash ht
  · exact .of_wash ht

/-- The backwash pump's echo may settle the pump's restore object, and leaves the restore running (R132). -/
theorem State.pumpEcho_bounds (s : State) (v : Nat) : BoundsKept s (s.pumpEcho v) := by
  have confirms : ∀ t : State, BoundsKept t (t.forFilters fun t f =>
      match s.backwashOf f with
      | none => t
      | some b => match b.step with
        | .move .pump awaited _ => if v = awaited then t.moveConfirmed f b .pump v else t
        | .move .valves _ _ | .dwell _ => t) := by
    refine .foldl (fun t f => ?_) _
    split
    · exact .refl t
    split
    · split
      · exact .of_wash (t.moveConfirmed_wash f _ _ v)
      · exact .refl t
    · exact .refl t
    · exact .refl t
  unfold State.pumpEcho
  split
  all_goals
    refine BoundsKept.trans ?_ (confirms _)
    exact .of_others rfl rfl rfl

theorem State.consumeEcho_bounds (s : State) (station channel v : Nat) :
    BoundsKept s (s.consumeEcho station channel v) := by
  unfold State.consumeEcho
  split
  · exact .refl s
  extract_lets e
  cases e.object with
  | doseLine =>
    dsimp only
    split
    · exact s.lineEcho_bounds _ v
    · exact .refl s
  | filterValves =>
    dsimp only
    split
    · exact s.valveEcho_bounds _ v
    · exact .refl s
  | backwashPump => exact s.pumpEcho_bounds v
  | circPump => exact .refl s
  | pass => exact .refl s
  | closed => exact .refl s

/-! ## Readings -/

theorem State.makeStale_bounds (s : State) (k : SlotIx) : BoundsKept s (s.makeStale k) :=
  s.putSlot_bounds k _ (.inl rfl)

/-- A substitute set in SUPERVISED on a FREE_CL or PH slot for at most 240 minutes is within the bounds (R42). -/
theorem State.putSubstitute_bounds (s : State) (k : SlotIx) (v m : Nat) (hk : k.val ≤ 11) (hm : m ≤ 240)
    (hs : s.modeNow = .supervised) : BoundsKept s (s.putSubstitute k v m) := by
  unfold State.putSubstitute
  extract_lets x
  refine BoundsKept.trans (t := s.putSlot k { x with sub := some ⟨v, m * 60⟩ }) ⟨id, fun _ b j hj => ?_⟩
    (.of_wash (State.reportSlot_wash _ k _))
  simp only [State.putSlot_fields, Table.get_set] at hj ⊢
  by_cases hjk : j = k
  · rw [if_pos hjk] at hj ⊢
    refine ⟨hjk ▸ hk, hs, fun u hu => ?_⟩
    obtain rfl := Option.some.inj hu
    exact Nat.mul_le_mul_right 60 hm
  · rw [if_neg hjk] at hj ⊢
    exact b j hj

/-! ## Lines and filters -/

theorem State.addBatch_bounds (s : State) (i : LineIx) : BoundsKept s (s.addBatch i) := by
  unfold State.addBatch
  split
  · exact .refl s
  split
  · exact .refl s
  extract_lets b p t
  have ht : GateFrame s t := s.putProg_gate i _
  split
  · exact .of_gate (ht.trans (t.stepEnded_gate i _))
  · exact .of_gate ht

theorem State.startProgramme_bounds (s : State) (i : LineIx) (w : Which) :
    BoundsKept s (s.startProgramme i w).state := by
  have hb : BoundsKept s (s.beginStep i w 0).1 := .of_gate (s.beginStep_gate i w 0)
  unfold State.startProgramme
  split
  · exact .refl s
  split
  · exact .refl s
  extract_lets o
  split
  · exact .refl s
  · exact hb
  · exact hb
  · exact hb

theorem State.verdict_bounds (s : State) (f : FilterIx) : BoundsKept s (s.verdict f) := by
  unfold State.verdict
  extract_lets a v
  split
  · exact .refl s
  split
  · exact .of_others rfl rfl rfl
  split
  · exact .of_wash ((s.updArb_wash f _).trans (State.notify_wash _ _))
  · exact .of_wash ((s.updArb_wash f _).trans (State.notify_wash _ _))

theorem State.clearLine_bounds (s : State) (i : LineIx) : BoundsKept s (s.clearLine i).state := by
  unfold State.clearLine
  extract_lets l t
  split
  · exact .of_gate ((s.putLine_gate i _).trans (t.originate_gate _ _))
  · exact .refl s

theorem State.clearFilter_bounds (s : State) (f : FilterIx) : BoundsKept s (s.clearFilter f).state := by
  have hclear := s.clearIgnored_wash f
  unfold State.clearFilter
  split
  · exact .of_wash ((hclear.trans (State.startAttempt_wash _ f)).trans (State.arbitrate_wash _))
  split
  · exact .of_wash (hclear.trans (State.arbitrate_wash _))
  · exact .refl s

/-! ## Writes of a field (R162) -/

/-- A refused write, and one of the value held, change nothing (R162). -/
theorem finishWrite_bounds {α : Type} [DecidableEq α] {s : State} {old : α} {j : Except Result α}
    {commit : α → State} (h : ∀ r, BoundsKept s (commit r)) :
    BoundsKept s (finishWrite s old j commit).1 := by
  unfold finishWrite
  split
  · exact .refl s
  · dsimp only
    split
    · exact .refl s
    · exact h _

theorem State.stationAfresh_gate (s : State) (station : Nat) : GateFrame s (s.stationAfresh station) := by
  unfold State.stationAfresh
  refine GateFrame.forLines (fun t i => ?_) s
  split
  · split
    · exact t.gateAfresh_gate i
    · exact .refl t
  · exact .refl t

theorem State.circuitWritten_bounds (s : State) (k : CircuitIx) (old r : CircuitCfg) :
    BoundsKept s (s.circuitWritten k old r) := by
  unfold State.circuitWritten
  refine BoundsKept.trans ?_ (State.arbitrate_bounds _)
  dsimp only
  split
  · exact .of_others rfl rfl rfl
  split
  · split
    · exact .of_others rfl rfl rfl
    · refine BoundsKept.trans ?_ (State.reportClass_bounds _ k)
      exact BoundsKept.trans (t := (s.updTables fun t => { t with
        circuits := t.circuits.set k r }).updCircuit k Circuit.cleared)
        (.of_others rfl rfl rfl) (State.notify_bounds _ _)
  split
  · exact .of_others rfl rfl rfl
  · exact .of_others rfl rfl rfl

theorem State.lineWritten_bounds (s : State) (k : LineIx) (old r : LineCfg) :
    BoundsKept s (s.lineWritten k old r) := by
  unfold State.lineWritten
  extract_lets t
  have ht : BoundsKept s t := .of_others rfl rfl rfl
  split
  · unfold State.enableLine
    extract_lets _ u v
    exact ht.trans (.of_gate (((t.putLine_gate k _).trans (u.originate_gate _ _)).trans
      (v.applyCauses_gate k _)))
  split
  · exact ht.trans (.of_gate ((t.putProg_gate k none).trans (State.putLine_gate _ k _)))
  split
  · exact ht
  split
  · exact ht.trans (.of_gate (t.gateAfresh_gate k))
  split
  · exact ht.trans (.of_gate (t.applyCauses_gate k _))
  · exact ht

theorem State.filterWritten_bounds (s : State) (k : FilterIx) (old r : FilterCfg) :
    BoundsKept s (s.filterWritten k old r) := by
  unfold State.filterWritten
  extract_lets t
  have ht : BoundsKept s t := .of_others rfl rfl rfl
  have hwash : ∀ u, WashFrame t u → BoundsKept s u.arbitrate := fun u hu =>
    (ht.trans (.of_wash hu)).trans u.arbitrate_bounds
  split
  · exact hwash _ (((t.startAttempt_wash k).trans (State.rejudgeDp_wash _ k)).trans
      (State.rejudgeHours_wash _ k))
  split
  · exact hwash _ ((t.updFilter_wash k _).trans (State.updArb_wash _ k _))
  split
  · exact ht
  split
  · exact hwash _ (t.rejudgeDp_wash k)
  split
  · exact hwash _ (t.rejudgeHours_wash k)
  · exact hwash _ (.refl t)

theorem State.setParam_bounds (s : State) (n : Fin 8) (v : Nat) : BoundsKept s (s.setParam n v).1 := by
  refine finishWrite_bounds fun r => ?_
  extract_lets t
  have ht : BoundsKept s t := .of_others rfl rfl rfl
  have hjudged : BoundsKept s (t.forFilters State.judgeTanks).arbitrate :=
    (ht.trans (.of_wash (WashFrame.foldl State.judgeTanks_wash _ t))).trans (State.arbitrate_bounds _)
  have hplain : BoundsKept s t.arbitrate := ht.trans t.arbitrate_bounds
  split
  · exact hjudged
  · exact hjudged
  · exact hplain
  · exact hplain
  all_goals exact ht

/-- SET_FIELD of a named field (R162). -/
theorem State.writeField_bounds (s : State) (r : FieldRef) (v : Nat) :
    BoundsKept s (s.writeField r v).1 := by
  cases r with
  | directory k =>
    refine finishWrite_bounds fun r => BoundsKept.trans ?_ (State.arbitrate_bounds _)
    exact (s.updTables_bounds _).trans (.of_gate (State.stationAfresh_gate _ _))
  | admission k n =>
    refine finishWrite_bounds fun r => ?_
    dsimp only
    split
    · refine BoundsKept.trans ?_ (State.arbitrate_bounds _)
      refine (s.updTables_bounds _).trans (.of_gate (GateFrame.forLines (fun t i => ?_) _))
      split
      · exact t.gateAfresh_gate i
      · exact .refl t
    · exact .of_others rfl rfl rfl
  | mapEntry k n => exact finishWrite_bounds fun _ => .of_others rfl rfl rfl
  | slotSetting k n => exact finishWrite_bounds fun _ => .of_others rfl rfl rfl
  | flowInput k => exact finishWrite_bounds fun _ => .of_others rfl rfl rfl
  | circuit k n => exact finishWrite_bounds fun r => s.circuitWritten_bounds k _ r
  | line k n => exact finishWrite_bounds fun r => s.lineWritten_bounds k _ r
  | filter k n => exact finishWrite_bounds fun r => s.filterWritten_bounds k _ r
  | step k n => exact finishWrite_bounds fun _ => .of_others rfl rfl rfl
  | timetable k n =>
    refine finishWrite_bounds fun r => ?_
    dsimp only
    split
    · exact (s.updTables_bounds _).trans (State.evaluate_bounds _)
    · exact .of_others rfl rfl rfl
  | param n => exact s.setParam_bounds n v

end Sys2Proof.Machine
end

section
/-!
PROOFS. Every command keeps the restore tied to STARTUP and the substitutes within their bounds.
-/

namespace Sys2Proof.Machine

open Sys2Proof.Safety Sys2Proof.Claims

/-- The command answers a next state, in which the bounds are kept. -/
abbrev KeepsBounds (c : Instr) (s : State) : Prop :=
  ∃ t, exec c s = .next t ∧ BoundsKept s t

/-! ## Frames -/

theorem execForeignFrame_bounds (p : Port) (k : FrameKind) (a d : Byte) (s : State) :
    KeepsBounds (.foreignFrame p k a d) s := by
  refine ⟨_, rfl, ?_⟩
  cases p with
  | supervisor =>
    dsimp only
    split
    · exact s.notify_bounds _
    · exact .refl s
  | segment g => exact State.segFrame_keeps (.refl s) s.notify_bounds (.refl s)

theorem execMisplacedStation_bounds (g : SegIx) (k : FrameKind) (a d : Byte) (s : State) :
    KeepsBounds (.misplacedStation g k a d) s := by
  refine ⟨_, rfl, ?_⟩
  split
  · exact .refl s
  · exact State.segFrame_keeps (.refl s) s.notify_bounds (.refl s)

theorem execStationCommand_bounds (d : Byte) (n : Fin 8) (v : Half) (s : State) :
    KeepsBounds (.stationCommand d n v) s := by
  refine ⟨_, rfl, ?_⟩
  split
  · exact s.stationCommand_bounds _
  split
  · exact s.notify_bounds _
  · exact .refl s

theorem execSample_bounds (g : SegIx) (a : Byte) (n : Fin 8) (v : Half) (q : Byte) (s : State) :
    KeepsBounds (.sample g a n v q) s := by
  refine ⟨_, rfl, State.segFrame_keeps (.refl s) s.notify_bounds ?_⟩
  dsimp only
  split
  · exact (s.applySample_bounds _ v.toNat q).trans (State.forwardUp_bounds _ _)
  · exact s.forwardUp_bounds _

theorem execEcho_bounds (g : SegIx) (a : Byte) (n : Fin 8) (v : Half) (s : State) :
    KeepsBounds (.echo g a n v) s := by
  refine ⟨_, rfl, State.segFrame_keeps (.refl s) s.notify_bounds ?_⟩
  exact (((s.consumeEcho_bounds _ _ _).trans (State.checkRestore_bounds _)).trans
    (State.arbitrate_bounds _)).trans (State.forwardUp_bounds _ _)

theorem execRequestDiscarded_bounds (code tag : Byte) (s : State) :
    KeepsBounds (.requestDiscarded code tag) s := by
  refine ⟨_, rfl, ?_⟩
  split
  · exact .refl s
  · exact .of_others rfl rfl rfl

theorem execUnknownRequestCode_bounds (code tag : Byte) (s : State) :
    KeepsBounds (.unknownRequestCode code tag) s := by
  refine ⟨_, rfl, ?_⟩
  split
  · exact .refl s
  split
  · exact .of_others rfl rfl rfl
  · exact .of_others rfl rfl rfl

theorem execTransmitStart_bounds (p : Port) (s : State) : KeepsBounds (.transmitStart p) s := by
  refine ⟨_, rfl, ?_⟩
  cases p with
  | segment g => exact .of_others rfl rfl rfl
  | supervisor =>
    dsimp only [State.supervisorStart]
    split
    · exact .of_others rfl rfl rfl
    · exact .of_others rfl rfl rfl
    · exact .of_others rfl rfl rfl
    · exact .refl s

/-! ## Segments and flow -/

theorem execSignalLoss_bounds (g : SegIx) (s : State) : KeepsBounds (.signalLoss g) s := by
  refine ⟨_, rfl, ?_⟩
  split
  · exact s.putSegState_bounds g _ _
  · exact s.cutSegment_bounds g _ _
  all_goals exact .refl s

theorem execSignalReturn_bounds (g : SegIx) (s : State) : KeepsBounds (.signalReturn g) s := by
  refine ⟨_, rfl, ?_⟩
  split
  · exact s.putSegState_bounds g _ _
  · exact s.putSegState_bounds g _ _
  all_goals exact .refl s

theorem execLossTimerExpiry_bounds (g : SegIx) (s : State) : KeepsBounds (.lossTimerExpiry g) s := by
  refine ⟨_, rfl, ?_⟩
  split
  · exact s.cutSegment_bounds g _ _
  all_goals exact .refl s

theorem execRecoveryTimerExpiry_bounds (g : SegIx) (s : State) :
    KeepsBounds (.recoveryTimerExpiry g) s := by
  have hup : BoundsKept s (s.putSegState g .up none) := .of_others rfl rfl rfl
  refine ⟨_, rfl, ?_⟩
  split
  · exact ((hup.trans (State.notify_bounds _ _)).trans (State.firstUp_bounds _ g)).trans
      (.of_wash (State.reportSegment_wash _ g))
  all_goals exact .refl s

theorem execWindowEnd_bounds (s : State) : KeepsBounds .windowEnd s := by
  refine ⟨_, rfl, ?_⟩
  split
  · exact BoundsKept.trans (t := s.atJudgement) (.of_others rfl rfl rfl) (.of_works s.windowEnd_worked)
  · exact .refl s

theorem execStarvedLong_bounds (c : CircuitIx) (s : State) : KeepsBounds (.starvedLong c) s := by
  refine ⟨_, rfl, ?_⟩
  split
  · exact (s.notify_bounds _).trans (State.updCircuit_bounds _ c _)
  · exact .refl s

/-! ## Readings, lines and filters -/

theorem execSlotStale_bounds (k : SlotIx) (s : State) : KeepsBounds (.slotStale k) s := by
  refine ⟨_, rfl, ?_⟩
  split
  · exact ((s.makeStale_bounds k).trans (State.notify_bounds _ _)).trans
      (.of_wash (State.reportSlot_wash _ k _))
  · exact .refl s

theorem execUnderlyingStale_bounds (k : SlotIx) (s : State) : KeepsBounds (.underlyingStale k) s := by
  refine ⟨_, rfl, ?_⟩
  split
  · exact s.makeStale_bounds k
  · exact .refl s

theorem execSubstituteExpiry_bounds (k : SlotIx) (s : State) : KeepsBounds (.substituteExpiry k) s := by
  refine ⟨_, rfl, ?_⟩
  split
  · exact .of_slots (s.endSubstitute_slots k _).1
  · exact .refl s

theorem execResumeTimerExpiry_bounds (i : LineIx) (s : State) : KeepsBounds (.resumeTimerExpiry i) s := by
  refine ⟨_, rfl, ?_⟩
  split
  · exact .of_gate (s.resumeExpired_gate i)
  · exact .refl s

theorem execConfirmTimerExpiry_bounds (i : LineIx) (s : State) :
    KeepsBounds (.confirmTimerExpiry i) s := by
  refine ⟨_, rfl, ?_⟩
  split
  · exact .of_gate (s.faultLine_gate i _ _)
  · exact .refl s

theorem execTotaliserAddition_bounds (i : LineIx) (s : State) :
    KeepsBounds (.totaliserAddition i) s := by
  have htotal : BoundsKept s (s.addTotal i) := .of_others rfl rfl rfl
  refine ⟨_, rfl, ?_⟩
  split
  · exact htotal.trans (State.addBatch_bounds _ i)
  · exact .refl s

theorem execProgrammeStepEnd_bounds (i : LineIx) (s : State) : KeepsBounds (.programmeStepEnd i) s := by
  refine ⟨_, rfl, ?_⟩
  split
  · exact .refl s
  split
  · exact .of_gate (s.stepEnded_gate i _)
  · exact .refl s

theorem execBatchCap_bounds (i : LineIx) (s : State) : KeepsBounds (.batchCap i) s := by
  refine ⟨_, rfl, ?_⟩
  split
  · exact .refl s
  split
  · exact .refl s
  split
  · exact .of_gate ((s.notify_gate _).trans (State.stepEnded_gate _ i _))
  · exact .refl s

theorem execRunHoursCount_bounds (f : FilterIx) (s : State) : KeepsBounds (.runHoursCount f) s := by
  refine ⟨_, rfl, ?_⟩
  split
  · dsimp only
    split
    · exact .of_wash (s.putRunHours_wash f _)
    · exact .of_wash (((s.putRunHours_wash f _).trans (State.rejudgeHours_wash _ f)).trans
        (State.arbitrate_wash _))
  · exact .refl s

theorem execHoldOffExpiry_bounds (f : FilterIx) (s : State) : KeepsBounds (.holdOffExpiry f) s := by
  refine ⟨_, rfl, ?_⟩
  split
  · exact .of_wash ((s.updArb_wash f _).trans (State.arbitrate_wash _))
  · exact .refl s

theorem execCheckExpiry_bounds (f : FilterIx) (s : State) : KeepsBounds (.checkExpiry f) s := by
  refine ⟨_, rfl, ?_⟩
  split
  · exact (s.verdict_bounds f).trans (.of_wash (((State.updArb_wash _ f _).trans
      (State.rejudgeDp_wash _ f)).trans (State.arbitrate_wash _)))
  · exact .refl s

theorem execServiceAttemptExpiry_bounds (f : FilterIx) (s : State) :
    KeepsBounds (.serviceAttemptExpiry f) s := by
  refine ⟨_, rfl, ?_⟩
  split
  · exact .of_wash ((s.attemptExpired_wash f).trans (State.arbitrate_wash _))
  · exact .refl s

theorem execTravelTimerExpiry_bounds (f : FilterIx) (s : State) :
    KeepsBounds (.travelTimerExpiry f) s := by
  refine ⟨_, rfl, ?_⟩
  split
  · exact .refl s
  split
  · refine BoundsKept.trans ?_ (State.arbitrate_bounds _)
    split
    · exact .of_wash (s.noReturnFault_wash f)
    · exact .of_wash (s.abort_wash f _)
  · exact .refl s
  · exact .refl s

theorem execDwellEnd_bounds (f : FilterIx) (s : State) : KeepsBounds (.dwellEnd f) s := by
  refine ⟨_, rfl, ?_⟩
  split
  · exact .refl s
  split
  · exact .of_wash (s.dwellEnded_wash f _)
  all_goals exact .refl s

theorem execRestoreLimit_bounds (s : State) : KeepsBounds .restoreLimit s := by
  refine ⟨_, rfl, ?_⟩
  split
  · rename_i h
    exact s.restoreExpired_bounds h.1
  · exact .refl s

/-! ## Mode, clock, store and inputs -/

/-- A mode that is read off the live fields. -/
theorem State.modeNow_of_state {s : State} {m : ModeState} (h : s.mode.state = m) : s.modeNow = m.mode := by
  rw [State.modeNow, h]

/-- The live fields of a mode change while the mode stands (R145, R147). -/
theorem State.sameMode_bounds (s : State) (m : ModeState) (h : m.mode = s.modeNow) :
    BoundsKept s { s with mode := { s.mode with state := m } } :=
  .of_view h rfl fun _ => .inl rfl

theorem execLivenessPeriodEnd_bounds (s : State) : KeepsBounds .livenessPeriodEnd s := by
  refine ⟨_, rfl, ?_⟩
  split
  · rename_i l hl
    have hmode : s.modeNow = .supervised := State.modeNow_of_state hl
    split
    · exact .refl s
    split
    · exact s.enterFallback_bounds _ (by rw [hmode]; nofun)
    · exact ((s.sameMode_bounds (.supervised { l with elapsed := 0, late := true }) hmode.symm).trans
        (State.notify_bounds _ _)).trans (.of_others rfl rfl rfl)
  all_goals exact .refl s

theorem execReturnTimerExpiry_bounds (s : State) : KeepsBounds .returnTimerExpiry s := by
  refine ⟨_, rfl, ?_⟩
  split
  · rename_i f hf
    split
    · exact s.sameMode_bounds _ (State.modeNow_of_state hf).symm
    · exact .refl s
  all_goals exact .refl s

theorem execFallbackLimit_bounds (s : State) : KeepsBounds .fallbackLimit s := by
  refine ⟨_, rfl, ?_⟩
  split
  · rename_i f hf
    split
    · exact s.enterLockout_bounds _ _ (by rw [State.modeNow_of_state hf]; nofun)
    · exact .refl s
  all_goals exact .refl s

theorem execMinuteChange_bounds (s : State) : KeepsBounds .minuteChange s := by
  refine ⟨_, rfl, ?_⟩
  split
  · exact BoundsKept.trans (t := s.updClock Clock.nextMinute) (.of_others rfl rfl rfl) (State.evaluate_bounds _)
  · exact .refl s

theorem execSettingsWriteEnd_bounds (s : State) : KeepsBounds .settingsWriteEnd s := by
  refine ⟨_, rfl, ?_⟩
  split
  · split
    · exact .refl s
    · exact .of_others rfl rfl rfl
  · exact .refl s

theorem execCommitWriteEnd_bounds (s : State) : KeepsBounds .commitWriteEnd s := by
  refine ⟨_, rfl, ?_⟩
  split
  · split
    · exact .of_others rfl rfl rfl
    · exact .refl s
  · exact .refl s

theorem execPlantStopAsserted_bounds (s : State) : KeepsBounds .plantStopAsserted s := by
  refine ⟨_, rfl, ?_⟩
  split
  · exact .refl s
  · exact (((BoundsKept.of_wash (s.setPb_wash false)).trans (State.gatePlantStop_bounds _ true)).trans
      (.foldl (fun t f => .of_wash (t.abort_wash f .plantStop)) (List.finRange 8) _)).trans
      (State.arbitrate_bounds _)

theorem execPlantStopReleased_bounds (s : State) : KeepsBounds .plantStopReleased s := by
  refine ⟨_, rfl, ?_⟩
  split
  · exact (s.gatePlantStop_bounds false).trans (State.arbitrate_bounds _)
  · exact .refl s

theorem execRestartReset_bounds (s : State) : KeepsBounds .restartReset s := by
  cases hr : s.mode.restart with
  | none => exact ⟨s, by simp only [exec, execRestartReset, hr], .refl s⟩
  | some cause =>
    refine ⟨if s.restartHeld cause then s else s.resetPart cause, by
      simp only [exec, execRestartReset, hr], ?_⟩
    split
    · exact .refl s
    · exact s.resetPart_bounds cause

/-! ## Requests -/

/-- An answered request keeps the bounds if its body does. -/
theorem Reply.finish_bounds {s : State} {x : Reply} (h : BoundsKept s x.state) (r : Request) (tag : Byte) :
    BoundsKept s (x.finish r tag) := by
  unfold Reply.finish
  split
  · exact h.trans (.of_others rfl rfl rfl)
  · exact h

/-- Taking a request keeps the bounds if its body does, in a mode that accepts it (R153, R161). -/
theorem State.manage_bounds {α : Type} {s : State} {r : Request} {tag : Byte} {modeOk : Bool}
    {args : Option α} {body : α → Reply}
    (h : ∀ a, args = some a → modeOk = true → BoundsKept s (body a).state) :
    BoundsKept s (s.manage r tag modeOk args body) :=
  State.manage_keeps (P := BoundsKept s) (.of_others rfl rfl rfl) (fun _ _ => .of_others rfl rfl rfl)
    fun a ha _ hm _ => Reply.finish_bounds (h a ha hm) r tag

/-- LOCK and the requests of SUPERVISED and FALLBACK are not accepted in STARTUP (R153). -/
theorem Mode.ne_startup_of_lockable {m : Mode} (h : m.lockable = true) : m ≠ .startup := by
  rintro rfl
  cases h

theorem Mode.ne_startup_of_alive {m : Mode} (h : m.alive = true) : m ≠ .startup := by
  rintro rfl
  cases h

theorem execRefresh_bounds (tag : Byte) (args : List Byte) (s : State) :
    KeepsBounds (.refresh tag args) s := by
  refine ⟨_, rfl, State.manage_bounds fun _ _ _ => ?_⟩
  split
  · rename_i l hl
    have hmode : s.modeNow = .supervised := State.modeNow_of_state hl
    unfold State.refreshSupervised
    split
    · exact s.enterFallback_bounds _ (by rw [hmode]; nofun)
    · exact s.sameMode_bounds _ hmode.symm
  · rename_i f hf
    have hmode : s.modeNow = .fallback := State.modeNow_of_state hf
    unfold State.refreshFallback
    dsimp only
    split
    · exact s.changeMode_bounds _ _ (by rw [hmode]; nofun) nofun (.inr (by rw [hmode]; nofun))
    · exact s.sameMode_bounds _ hmode.symm
  all_goals exact .refl s

theorem execEnterSupervised_bounds (tag : Byte) (args : List Byte) (s : State) :
    KeepsBounds (.enterSupervised tag args) s := by
  refine ⟨_, rfl, State.manage_bounds fun _ _ hm => ?_⟩
  have hmode : s.modeNow = .hold := by simpa using hm
  exact s.changeMode_bounds _ _ (by rw [hmode]; nofun) nofun (.inr (by rw [hmode]; nofun))

theorem execEnterHold_bounds (tag : Byte) (args : List Byte) (s : State) :
    KeepsBounds (.enterHold tag args) s :=
  ⟨_, rfl, State.manage_bounds fun _ _ hm =>
    s.changeMode_bounds .hold _ (Mode.ne_startup_of_alive hm) nofun (.inl rfl)⟩

theorem execLock_bounds (tag : Byte) (args : List Byte) (s : State) : KeepsBounds (.lock tag args) s :=
  ⟨_, rfl, State.manage_bounds fun _ _ hm => s.enterLockout_bounds _ _ (Mode.ne_startup_of_lockable hm)⟩

theorem execRelease_bounds (tag : Byte) (args : List Byte) (s : State) :
    KeepsBounds (.release tag args) s := by
  have hflag : BoundsKept s { s.updRetained fun r => { r with
      lockoutFlag := false, recoveryCount := 0 } with
        pins := { s.pins with lockout := false } } := .of_others rfl rfl rfl
  refine ⟨_, rfl, State.manage_bounds fun _ _ hm => ?_⟩
  have hmode : s.modeNow = .lockout := by simpa using hm
  split
  · refine hflag.trans (State.changeMode_bounds _ .hold _ ?_ nofun (.inl rfl))
    exact fun h => nomatch hmode.symm.trans h
  · exact .refl s

theorem State.storeBody_bounds (s : State) (commit : Bool) (tag : Byte) :
    BoundsKept s (s.storeBody commit tag).state := by
  unfold State.storeBody
  split
  · exact .refl s
  · exact .of_others rfl rfl rfl

theorem execRestart_bounds (tag : Byte) (args : List Byte) (s : State) :
    KeepsBounds (.restart tag args) s := by
  refine ⟨_, rfl, State.manage_bounds fun _ _ _ => ?_⟩
  split
  · exact .refl s
  · exact .of_others rfl rfl rfl

theorem execSetClock_bounds (tag : Byte) (args : List Byte) (s : State) :
    KeepsBounds (.setClock tag args) s :=
  ⟨_, rfl, State.manage_bounds fun a _ _ => BoundsKept.trans (t := s.updClock fun c =>
    { c with day := a.1, minute := a.2.1, second := a.2.2, valid := true }) (.of_others rfl rfl rfl)
    (State.evaluate_bounds _)⟩

theorem execSetField_bounds (tag : Byte) (args : List Byte) (s : State) :
    KeepsBounds (.setField tag args) s := by
  refine ⟨_, rfl, ?_⟩
  split
  · rename_i h
    unfold State.configBreach
    split
    · exact .of_others rfl rfl rfl
    · exact (s.enterFallback_bounds _ (by rw [h.1]; nofun)).trans (.of_others rfl rfl rfl)
  · refine State.manage_bounds fun a _ _ => ?_
    unfold State.setFieldBody
    split
    · exact .refl s
    split
    · exact .refl s
    · exact s.writeField_bounds _ _

/-- What passes the checks of SET_SUBSTITUTE is a FREE_CL or PH slot and at most 240 minutes (R42). -/
theorem State.substituteArgs_bounds {s : State} {args : List Byte} {a : SlotIx × Nat × Nat}
    (h : s.substituteArgs args = some a) : a.1.val ≤ 11 ∧ a.2.2 ≤ 240 := by
  unfold State.substituteArgs at h
  split at h
  · dsimp only at h
    split at h
    · split at h
      · rename_i hok
        obtain ⟨hslot, -, -, -, hminutes⟩ := hok
        obtain rfl := Option.some.inj h
        exact ⟨hslot, hminutes⟩
      · cases h
    · cases h
  · cases h

theorem execSetSubstitute_bounds (tag : Byte) (args : List Byte) (s : State) :
    KeepsBounds (.setSubstitute tag args) s := by
  refine ⟨_, rfl, State.manage_bounds fun a ha hm => ?_⟩
  obtain ⟨hslot, hminutes⟩ := State.substituteArgs_bounds ha
  exact s.putSubstitute_bounds _ _ _ hslot hminutes (by simpa using hm)

theorem execClearSubstitute_bounds (tag : Byte) (args : List Byte) (s : State) :
    KeepsBounds (.clearSubstitute tag args) s := by
  refine ⟨_, rfl, State.manage_bounds fun k _ _ => ?_⟩
  split
  · exact .refl s
  · exact .of_slots (s.endSubstitute_slots k _).1

theorem execStopProgramme_bounds (tag : Byte) (args : List Byte) (s : State) :
    KeepsBounds (.stopProgramme tag args) s := by
  refine ⟨_, rfl, State.manage_bounds fun i _ _ => ?_⟩
  split
  · exact .refl s
  · exact .of_gate ((s.putProg_gate i none).trans (State.release_gate _ i))

theorem execBackwashNow_bounds (tag : Byte) (args : List Byte) (s : State) :
    KeepsBounds (.backwashNow tag args) s := by
  refine ⟨_, rfl, State.manage_bounds fun f _ _ => ?_⟩
  split
  · exact .refl s
  split
  · exact .refl s
  · exact .of_wash ((s.updArb_wash f _).trans (State.arbitrate_wash _))

theorem execAbortBackwash_bounds (tag : Byte) (args : List Byte) (s : State) :
    KeepsBounds (.abortBackwash tag args) s := by
  refine ⟨_, rfl, State.manage_bounds fun f _ _ => ?_⟩
  split
  · exact .of_wash (s.abort_wash f _)
  split
  · exact .of_wash ((s.dropManual_wash f).trans (State.arbitrate_wash _))
  · exact .refl s

theorem State.putMask_bounds (s : State) (f : FilterIx) (on : Bool) : BoundsKept s (s.putMask f on) :=
  .of_wash ((s.updArb_wash f _).trans (State.arbitrate_wash _))

theorem State.clearFault_bounds (s : State) (tag : Byte) (args : List Byte) :
    BoundsKept s (s.clearFault tag args) := by
  refine State.manage_bounds fun a _ _ => ?_
  cases a with
  | line i => exact s.clearLine_bounds i
  | filter f => exact s.clearFilter_bounds f

theorem execIsolateSegment_bounds (tag : Byte) (args : List Byte) (s : State) :
    KeepsBounds (.isolateSegment tag args) s := by
  refine ⟨_, rfl, State.manage_bounds fun g _ _ => ?_⟩
  split
  · exact .refl s
  · rw [State.reply_state]
    exact s.cutSegment_bounds g .forced .forced

theorem execRestoreSegment_bounds (tag : Byte) (args : List Byte) (s : State) :
    KeepsBounds (.restoreSegment tag args) s := by
  refine ⟨_, rfl, State.manage_bounds fun g _ _ => ?_⟩
  split
  · rw [State.reply_state]
    exact s.putSegState_bounds g .recovering (some Config.recoverySeconds)
  · exact .refl s

/-- A request whose body changes no record that the bounds rest on. -/
theorem KeepsBounds.of_manage {α : Type} {c : Instr} {s : State} {r : Request} {tag : Byte}
    {modeOk : Bool} {args : Option α} {body : α → Reply}
    (he : exec c s = .next (s.manage r tag modeOk args body))
    (h : ∀ a, BoundsKept s (body a).state) : KeepsBounds c s :=
  ⟨_, he, State.manage_bounds fun a _ _ => h a⟩

/-! ## Every command -/

theorem exec_bounds (c : Instr) (s : State) : KeepsBounds c s := by
  cases c with
  | powerOn => exact ⟨_, rfl, s.resetPart_bounds .powerOn⟩
  | resetPin => exact ⟨_, rfl, s.resetPart_bounds .resetPin⟩
  | restartReset => exact execRestartReset_bounds s
  | frameDiscarded p b => exact ⟨_, rfl, .refl s⟩
  | foreignFrame p k a d => exact execForeignFrame_bounds p k a d s
  | misplacedStation g k a d => exact execMisplacedStation_bounds g k a d s
  | stationCommand d n v => exact execStationCommand_bounds d n v s
  | sample g a n v q => exact execSample_bounds g a n v q s
  | echo g a n v => exact execEcho_bounds g a n v s
  | requestDiscarded code tag => exact execRequestDiscarded_bounds code tag s
  | unknownRequestCode code tag => exact execUnknownRequestCode_bounds code tag s
  | transmitStart p => exact execTransmitStart_bounds p s
  | signalLoss g => exact execSignalLoss_bounds g s
  | signalReturn g => exact execSignalReturn_bounds g s
  | lossTimerExpiry g => exact execLossTimerExpiry_bounds g s
  | recoveryTimerExpiry g => exact execRecoveryTimerExpiry_bounds g s
  | flowPulse i => exact ⟨_, rfl, .of_others rfl rfl rfl⟩
  | windowEnd => exact execWindowEnd_bounds s
  | starvedLong c => exact execStarvedLong_bounds c s
  | slotStale k => exact execSlotStale_bounds k s
  | underlyingStale k => exact execUnderlyingStale_bounds k s
  | substituteExpiry k => exact execSubstituteExpiry_bounds k s
  | resumeTimerExpiry i => exact execResumeTimerExpiry_bounds i s
  | confirmTimerExpiry i => exact execConfirmTimerExpiry_bounds i s
  | totaliserAddition i => exact execTotaliserAddition_bounds i s
  | programmeStepEnd i => exact execProgrammeStepEnd_bounds i s
  | batchCap i => exact execBatchCap_bounds i s
  | runHoursCount f => exact execRunHoursCount_bounds f s
  | holdOffExpiry f => exact execHoldOffExpiry_bounds f s
  | checkExpiry f => exact execCheckExpiry_bounds f s
  | serviceAttemptExpiry f => exact execServiceAttemptExpiry_bounds f s
  | travelTimerExpiry f => exact execTravelTimerExpiry_bounds f s
  | dwellEnd f => exact execDwellEnd_bounds f s
  | restoreLimit => exact execRestoreLimit_bounds s
  | livenessPeriodEnd => exact execLivenessPeriodEnd_bounds s
  | returnTimerExpiry => exact execReturnTimerExpiry_bounds s
  | fallbackLimit => exact execFallbackLimit_bounds s
  | minuteChange => exact execMinuteChange_bounds s
  | settingsWriteEnd => exact execSettingsWriteEnd_bounds s
  | commitWriteEnd => exact execCommitWriteEnd_bounds s
  | plantStopAsserted => exact execPlantStopAsserted_bounds s
  | plantStopReleased => exact execPlantStopReleased_bounds s
  | keyswitchChange on => exact ⟨_, rfl, .of_others rfl rfl rfl⟩
  | refresh tag args => exact execRefresh_bounds tag args s
  | enterSupervised tag args => exact execEnterSupervised_bounds tag args s
  | enterHold tag args => exact execEnterHold_bounds tag args s
  | lock tag args => exact execLock_bounds tag args s
  | release tag args => exact execRelease_bounds tag args s
  | commitCommissioning tag args => exact .of_manage rfl fun _ => s.storeBody_bounds true tag
  | restart tag args => exact execRestart_bounds tag args s
  | clearRecoveryCount tag args => exact .of_manage rfl fun _ => .of_others rfl rfl rfl
  | setClock tag args => exact execSetClock_bounds tag args s
  | setField tag args => exact execSetField_bounds tag args s
  | getField tag args => exact .of_manage rfl fun _ => .refl s
  | getState tag args => exact .of_manage rfl fun _ => .refl s
  | storeSettings tag args => exact .of_manage rfl fun _ => s.storeBody_bounds false tag
  | setSubstitute tag args => exact execSetSubstitute_bounds tag args s
  | clearSubstitute tag args => exact execClearSubstitute_bounds tag args s
  | startProgramme tag args => exact .of_manage rfl fun _ => s.startProgramme_bounds _ _
  | stopProgramme tag args => exact execStopProgramme_bounds tag args s
  | backwashNow tag args => exact execBackwashNow_bounds tag args s
  | abortBackwash tag args => exact execAbortBackwash_bounds tag args s
  | maskFilter tag args => exact .of_manage rfl fun f => s.putMask_bounds f true
  | unmaskFilter tag args => exact .of_manage rfl fun f => s.putMask_bounds f false
  | setLowest tag args => exact .of_manage rfl fun f => .of_wash (s.rotate_wash f)
  | clearFaultLine tag args => exact ⟨_, rfl, s.clearFault_bounds tag args⟩
  | clearFaultFilter tag args => exact ⟨_, rfl, s.clearFault_bounds tag args⟩
  | snapshot tag args => exact .of_manage rfl fun _ => .of_others rfl rfl rfl
  | readSnapshot tag args => exact .of_manage rfl fun _ => .of_others rfl rfl rfl
  | isolateSegment tag args => exact execIsolateSegment_bounds tag args s
  | restoreSegment tag args => exact execRestoreSegment_bounds tag args s
  | readConditions tag args => exact .of_manage rfl fun _ => .refl s
  | clearConditions tag args => exact .of_manage rfl fun _ => .of_others rfl rfl rfl

/-- A step is a second or a command at the front of the queue, which is none of the records the bounds rest on. -/
theorem step_bounds {s t : State} (h : step s = .next t) : BoundsKept s t := by
  unfold step at h
  split at h
  · rw [← Host.Outcome.next.inj h]
    exact s.tick_bounds
  · rename_i c rest _
    obtain ⟨u, hu, hkept⟩ := exec_bounds c { s with pending := rest }
    obtain rfl : u = t := Host.Outcome.next.inj (hu.symm.trans h)
    exact BoundsKept.trans (t := { s with pending := rest }) (.of_others rfl rfl rfl) hkept

/-- Settles O8: every step keeps the restore tied to STARTUP and the substitutes within their bounds. -/
theorem restoreAndSubstitutesStayBounded : Obligations.RestoreAndSubstitutesStayBounded :=
  ⟨fun _ _ hrestore h => (step_bounds h).restore hrestore,
    fun _ _ hrestore hsubs h => (step_bounds h).substitutes hrestore hsubs⟩

end Sys2Proof.Machine
end

section
/-!
PROOFS. What the report of a changed reading makes of the lines that it governs (R65) and of the DP sources of its
filter (R97, R98).
-/

namespace Sys2Proof.Machine

open Sys2Proof.Safety Sys2Proof.Claims

/-! ## Notices before a report -/

/-- From `s` to `t` notices were raised, and nothing else was done. -/
structure NoticesSent (s t : State) : Prop where
  quiet : QuietFrame s t
  works : Works (fun _ => False) s t
  grows : OwnGrows [] s t

theorem NoticesSent.refl (s : State) : NoticesSent s s := ⟨.refl s, .refl _ s, .refl _ s⟩

theorem NoticesSent.notify {s t : State} (h : NoticesSent s t) (n : Notice) :
    NoticesSent s (t.notify n) :=
  ⟨h.quiet.trans (t.notify_quiet n), h.works.trans (t.notify_works _ n),
    h.grows.trans_quiet (t.notify_grows n)⟩

theorem NoticesSent.readingFault {s t : State} (h : NoticesSent s t) (k : SlotIx) (c : Cause) (v : Nat) :
    NoticesSent s (t.readingFault k c v) := h.notify _

/-! ## A line whose causes have changed -/

/-- A cause present inhibits a line that is neither DISABLED nor FAULTED (R61). -/
theorem Line.settledState_inhibited {l : Line} (hd : l.state ≠ .disabled) (hf : l.state ≠ .faulted)
    (delay : Nat) : l.settledState true delay = .inhibited := by
  unfold Line.settledState
  cases hl : l.state with
  | disabled => exact absurd hl hd
  | faulted => exact absurd hl hf
  | stopped => rfl
  | dosing => rfl
  | inhibited => rfl
  | resuming => rfl

/-- From `r` to `t` line `i` has its permit as due, and has settled by the causes that it holds (R54, R55,
R61-R63), unless it is to dose at a point where others are enabled (R60). -/
structure Resettled (r t : State) (i : LineIx) : Prop where
  worked : Worked r t
  permit : t.PermitSet i
  settles : ((r.gate.get i).settledState (t.gate.get i).causes.any (r.tables.lines.get i).resumeDelay =
    .dosing → Alone r i) → LineSettles r t i

section
variable {r t : State} {i : LineIx} (h : Resettled r t i)
include h

/-- A line that settles in another state than DOSING rests there with its request kept. -/
theorem Resettled.rests (x : LineState) (hx : (r.gate.get i).settledState (t.gate.get i).causes.any
    (r.tables.lines.get i).resumeDelay = x) (hd : x ≠ .dosing) :
    (t.gate.get i).state = x ∧
      (x = .resuming → (t.gate.get i).resume = if (r.gate.get i).state = .resuming
        then (r.gate.get i).resume else (r.tables.lines.get i).resumeDelay) ∧
      ((t.gate.get i).requested = (r.gate.get i).requested ∧
        (t.gate.get i).source = (r.gate.get i).source) ∧ (t.gate.get i).admitted = 0 ∧
      ((r.gate.get i).admitted ≠ 0 → Offers r t (r.lineEntry i) 0 21) := by
  have hs := h.settles fun hdosing => absurd (hx.symm.trans hdosing) hd
  have hstate := hs.state.trans hx
  exact ⟨hstate, fun hr => hs.resume (hstate.trans hr), ⟨hs.requested, hs.source⟩, hs.idle (hstate ▸ hd)⟩

/-- A line that settles DOSING doses. -/
theorem Resettled.doses (hx : (r.gate.get i).settledState (t.gate.get i).causes.any
    (r.tables.lines.get i).resumeDelay = .dosing) (hany : (t.gate.get i).causes.any = false)
    (ha : Alone r i) : Doses r t i :=
  have hs := h.settles fun _ => ha
  hs.doses (hs.state.trans hx) hany

/-- Such a line stands as its causes give it. -/
theorem Resettled.lineFollows (hn : (r.gate.get i).state ≠ .disabled) : LineFollows r t i := by
  refine ⟨?_, fun hl => ?_, fun hany hl => ?_, fun hany => ⟨fun hl => ?_, fun hl => ?_,
    fun hl hreq => ?_, fun hl hreq hdelay => ?_, fun hl hreq hdelay => ?_, fun hl => ?_⟩⟩
  · have hpermit := h.permit.iff
    rwa [h.worked.tables] at hpermit
  · obtain ⟨hstate, -, hrests⟩ := h.rests .faulted (by simp [Line.settledState, hl]) nofun
    exact ⟨hstate, hrests⟩
  · obtain ⟨hstate, -, hrests⟩ := h.rests .inhibited
      (by rw [hany]; exact Line.settledState_inhibited hn hl _) nofun
    exact ⟨hstate, hrests⟩
  · obtain ⟨hstate, -, hrests⟩ := h.rests .stopped (by simp [Line.settledState, hl, hany]) nofun
    exact ⟨hstate, hrests⟩
  · obtain ⟨hstate, hresume, hrests⟩ := h.rests .resuming (by simp [Line.settledState, hl, hany]) nofun
    exact ⟨hstate, (hresume rfl).trans (if_pos hl), hrests⟩
  · obtain ⟨hstate, -, hrests⟩ := h.rests .stopped (by simp [Line.settledState, hl, hany, hreq]) nofun
    exact ⟨hstate, hrests⟩
  · obtain ⟨hstate, hresume, hrests⟩ := h.rests .resuming
      (by simp [Line.settledState, hl, hany, hreq.ne', hdelay.ne']) nofun
    exact ⟨hstate, (hresume rfl).trans (if_neg (by rw [hl]; nofun)), hrests⟩
  · exact h.doses (by simp [Line.settledState, hl, hany, hreq.ne', hdelay]) hany
  · exact h.doses (by simp [Line.settledState, hl, hany]) hany

/-- It stays so while other objects are worked on. -/
theorem Resettled.later {K : PlantObject → Prop} {u : State} (k : Works K t u) (hi : ¬ K (.line i)) :
    Resettled r u i where
  worked := h.worked.trans k.worked
  permit := k.permit i hi h.permit
  settles ha := by
    rw [k.line i hi] at ha
    exact (h.settles ha).later h.worked.tables k hi

end

/-- A line untouched so far that is told of new causes, none of them newly latched, takes them and settles. -/
theorem State.applyCauses_resettled {r t : State} {i : LineIx} {new : Causes} (h : Worked r t)
    (hline : t.gate.get i = r.gate.get i) (hn : (r.gate.get i).state ≠ .disabled)
    (hl : (r.gate.get i).causes.latchedNew new = false) :
    ((t.applyCauses i new).gate.get i).causes = new ∧ Resettled r (t.applyCauses i new) i := by
  obtain ⟨htaken, hpermit⟩ := t.applyCauses_causes i new (by rwa [hline])
  refine ⟨htaken, h.trans (t.applyCauses_works trivial new), hpermit, fun ha => ?_⟩
  rw [htaken] at ha
  exact State.applyCauses_settles h hline hn hl ha

/-! ## LIMIT (R65) -/

/-- From `r` to `t` line `i` has taken LIMIT as its reading gives it, and settled. -/
structure LimitTold (r t : State) (i : LineIx) : Prop extends Resettled r t i where
  causes : (t.gate.get i).causes =
    { (r.gate.get i).causes with limit := r.judgeLimit i (r.gate.get i).causes.limit }

theorem Works.judgeLimit {K : PlantObject → Prop} {s t : State} (h : Works K s t) (i : LineIx)
    (old : Bool) : t.judgeLimit i old = s.judgeLimit i old := by
  simp only [State.judgeLimit, h.tables, h.modeNow, h.reading]

/-- The report of slot `k` tells each line that it governs of LIMIT. -/
theorem State.gateReading_told {r p : State} {k : SlotIx} {i : LineIx} (h : Worked r p)
    (hline : p.gate.get i = r.gate.get i) (hn : (r.gate.get i).state ≠ .disabled)
    (hk : (r.tables.lines.get i).governing = some k) : LimitTold r (p.gateReading k) i := by
  unfold State.gateReading State.forLines
  have hother : ∀ (u : State) (j : LineIx) (new : Causes), j ≠ i →
      Works (· = .line j) u (u.applyCauses j new) ∧ ¬ PlantObject.line i = .line j :=
    fun u j new hj => ⟨u.applyCauses_works (K := (· = .line j)) rfl new, PlantObject.line_ne hj⟩
  refine foldl_at (P := fun u => Worked r u ∧ u.gate.get i = r.gate.get i)
    (Q := fun u => LimitTold r u i) (List.mem_finRange i) (List.nodup_finRange 12)
    (fun u j hj hu => ?_) (fun u hu => ?_) (fun u j hj hu => ?_) ⟨h, hline⟩
  · split
    · obtain ⟨hw, hne⟩ := hother u j { (u.gate.get j).causes with
        limit := u.judgeLimit j (u.gate.get j).causes.limit } hj
      exact ⟨hu.1.trans hw.worked, (hw.line i hne).trans hu.2⟩
    · exact hu
  · obtain ⟨hw, hl⟩ := hu
    rw [if_pos (by rw [hw.tables]; exact hk), hl, hw.judgeLimit]
    obtain ⟨hcauses, hsettled⟩ := State.applyCauses_resettled
      (new := { (r.gate.get i).causes with limit := r.judgeLimit i (r.gate.get i).causes.limit })
      hw hl hn (by simp [Causes.latchedNew])
    exact ⟨hsettled, hcauses⟩
  · split
    · obtain ⟨hw, hne⟩ := hother u j { (u.gate.get j).causes with
        limit := u.judgeLimit j (u.gate.get j).causes.limit } hj
      exact ⟨hu.toResettled.later hw hne, by rw [hw.line i hne]; exact hu.causes⟩
    · exact hu

/-- The lines that slot `k` governs. -/
def governedBy (T : Tables) (k : SlotIx) : PlantObject → Prop
  | .line i => (T.lines.get i).governing = some k
  | .valves _ | .pump => False

theorem State.gateReading_works (s : State) (k : SlotIx) :
    Works (governedBy s.tables k) s (s.gateReading k) := by
  refine State.linesWhere_works _ _ _ _ fun t ht i _ hk => ?_
  rw [ht] at hk
  exact hk

theorem governs_iff {s : State} {k : SlotIx} {i : LineIx} :
    Governs s k i ↔ (s.tables.lines.get i).governing = some k := by
  unfold Governs LineCfg.governing
  generalize s.tables.lines.get i = c
  cases hc : c.kind <;> simp [hc, eq_comm]

/-- A governing slot is a FREE_CL or a PH slot (R53). -/
theorem governing_lt {c : LineCfg} {k : SlotIx} (h : c.governing = some k) : k.val < 12 := by
  have hc := c.circuit.isLt
  unfold LineCfg.governing at h
  split at h
  · cases h; simp only [freeClSlot]; omega
  · cases h; simp only [phSlot]; omega
  · cases h

/-- A source is judged by its reading with its hysteresis (R97). -/
theorem judgeSource_judgedHigh (reading : Option Nat) (limit hysteresis : Nat) (old : Bool) :
    JudgedHigh reading limit hysteresis old (judgeSource reading limit hysteresis old) := by
  refine ⟨?_, ?_⟩
  · rintro rfl
    rfl
  · rintro v rfl
    refine ⟨fun h => if_pos h, fun h => ?_, fun h h' => ?_⟩
    · exact (if_neg (by omega)).trans (if_pos h)
    · exact (if_neg (by omega)).trans (if_neg (by omega))

/-- LIMIT of a HYPO line is judged from above, of an ACID line from below, and of none in COMMISSION (R65,
R70). -/
theorem State.judgeLimit_table (s : State) {i : LineIx} {k : SlotIx}
    (hk : (s.tables.lines.get i).governing = some k) (old : Bool) :
    let c := s.tables.lines.get i
    (s.modeNow = .commission → s.judgeLimit i old = false) ∧
      (s.modeNow ≠ .commission →
        (c.kind = .hypo → JudgedHigh (s.reading k) c.limit c.hysteresis old (s.judgeLimit i old)) ∧
        (c.kind = .acid → JudgedLow (s.reading k) c.limit c.hysteresis old (s.judgeLimit i old))) := by
  refine ⟨fun hm => ?_, fun hm => ⟨fun hkind => ?_, fun hkind => ?_⟩⟩
  · simp only [State.judgeLimit, hk, hm, if_true]
  · have hjudge : s.judgeLimit i old = judgeSource (s.reading k) (s.tables.lines.get i).limit
        (s.tables.lines.get i).hysteresis old := by
      simp only [State.judgeLimit, judgeSource, hk, if_neg hm, hkind, if_true]
    rw [hjudge]
    exact judgeSource_judgedHigh _ _ _ _
  · have hnot : ¬ (s.tables.lines.get i).kind = .hypo := by rw [hkind]; nofun
    refine ⟨fun hr => ?_, fun v hr => ?_⟩
    · simp only [State.judgeLimit, hk, if_neg hm, hr]
    · simp only [State.judgeLimit, hk, if_neg hm, hr, if_neg hnot]
      refine ⟨fun h => if_pos h, fun h => ?_, fun h h' => ?_⟩
      · exact (if_neg (by omega)).trans (if_pos h)
      · exact (if_neg (by omega)).trans (if_neg (by omega))

/-! ## DP and DP_URGENT (R97, R98) -/

/-- The judgement of the DP sources of an assigned filter. -/
theorem State.judgeDp_table (s : State) {f : FilterIx} (hf : (s.tables.filters.get f).assigned = true) :
    let c := s.tables.filters.get f
    let a := s.arbiter.filters.get f
    let r := s.judgeDp f
    r.hours = a.requests.hours ∧ r.manual = a.requests.manual ∧
      (a.dpIgnored = true ∨ a.check.isSome = true → r.dp = false ∧ r.dpUrgent = false) ∧
      (a.dpIgnored = false → a.check = none →
        JudgedHigh (s.reading (dpSlot f)) c.dpLimit c.dpHysteresis a.requests.dp r.dp ∧
        JudgedHigh (s.reading (dpSlot f)) c.dpUrgentLimit c.dpHysteresis a.requests.dpUrgent
          r.dpUrgent) := by
  have hassigned : ¬ (s.tables.filters.get f).assigned = false := by rw [hf]; nofun
  unfold State.judgeDp ArbFilter.suppressed
  dsimp only
  rw [if_neg hassigned]
  split
  · rename_i hs
    refine ⟨rfl, rfl, fun _ => ⟨rfl, rfl⟩, fun hi hc => ?_⟩
    rw [hi, hc] at hs
    cases hs
  · rename_i hs
    refine ⟨rfl, rfl, fun h => absurd ?_ hs, fun _ _ =>
      ⟨judgeSource_judgedHigh _ _ _ _, judgeSource_judgedHigh _ _ _ _⟩⟩
    rcases h with h | h
    · rw [h, Bool.or_true]
    · rw [h, Bool.true_or]

/-- The end of filter `g`'s pending check reaches no other filter (R98). -/
theorem State.cancelCheck_filter (s : State) (f g : FilterIx) :
    (s.cancelCheck g).arbiter.filters.get f = s.arbiter.filters.get f ∨
      (s.arbiter.filters.get f).check.isSome = true ∧
        (s.cancelCheck g).arbiter.filters.get f = { s.arbiter.filters.get f with
          check := none
          requests := (s.updArb f fun a => { a with check := none }).judgeDp f } := by
  unfold State.cancelCheck
  split
  · rename_i hcheck
    unfold State.rejudgeDp State.putRequests
    by_cases hf : f = g
    · subst hf
      refine .inr ⟨hcheck, ?_⟩
      simp only [State.updArb_fields, Table.get_upd_self]
    · refine .inl ?_
      simp only [State.updArb_fields, Table.get_upd_ne _ _ hf]
  · exact .inl rfl

/-- A grant changes a filter's fields in the Arbiter by the end of its pending check alone (R107). -/
theorem State.arbitrate_filter (s : State) (f : FilterIx) :
    s.arbitrate.arbiter.filters.get f = s.arbiter.filters.get f ∨
      (s.arbiter.filters.get f).check.isSome = true ∧
        s.arbitrate.arbiter.filters.get f = { s.arbiter.filters.get f with
          check := none
          requests := (s.updArb f fun a => { a with check := none }).judgeDp f } := by
  rcases s.arbitrate_cases with hsame | ⟨-, g, -, hgrant⟩
  · rw [hsame]; exact .inl rfl
  · have harbiter : (s.grant g).arbiter =
        (State.cancelCheck { s with arbiter := { s.arbiter with busy := some g } } g).arbiter := by
      unfold State.grant State.beginMove
      extract_lets a b t u v w
      rw [(State.notify_fields _ _).2.2.2.2.2.2.2.1, (State.gateBackwash_gate _ _).arbiter,
        (State.originate_gate _ _ _).arbiter]
      rfl
    rw [hgrant, harbiter]
    exact State.cancelCheck_filter { s with arbiter := { s.arbiter with busy := some g } } f g

/-- The report of the DP slot of an assigned filter judges its DP sources, and those of a filter that is granted
are judged without its check (R97, R98, R107). -/
theorem State.rejudgeDp_arbitrate (p : State) {f : FilterIx}
    (hf : (p.tables.filters.get f).assigned = true) :
    let c := p.tables.filters.get f
    let a := p.arbiter.filters.get f
    let b := (p.rejudgeDp f).arbitrate.arbiter.filters.get f
    b.requests.hours = a.requests.hours ∧ b.requests.manual = a.requests.manual ∧
      (a.dpIgnored = true ∨ b.check.isSome = true →
        b.requests.dp = false ∧ b.requests.dpUrgent = false) ∧
      (a.dpIgnored = false → a.check = none →
        JudgedHigh (p.reading (dpSlot f)) c.dpLimit c.dpHysteresis a.requests.dp b.requests.dp ∧
        JudgedHigh (p.reading (dpSlot f)) c.dpUrgentLimit c.dpHysteresis a.requests.dpUrgent
          b.requests.dpUrgent) := by
  obtain ⟨u, hu⟩ : ∃ u, u = p.rejudgeDp f := ⟨_, rfl⟩
  have hrejudged : u.arbiter.filters.get f =
      { p.arbiter.filters.get f with requests := p.judgeDp f } := by
    rw [hu, State.rejudgeDp, State.putRequests]
    simp only [State.updArb_fields, Table.get_upd_self]
  obtain ⟨hhours, hmanual, hsuppressed, hjudged⟩ := p.judgeDp_table hf
  rw [← hu]
  rcases u.arbitrate_filter f with hsame | ⟨hcheck, hgranted⟩
  · rw [hsame, hrejudged]
    exact ⟨hhours, hmanual, hsuppressed, hjudged⟩
  · have htables : (u.updArb f fun a => { a with check := none }).tables = p.tables := by rw [hu]; rfl
    obtain ⟨hhours', hmanual', hsuppressed', -⟩ :=
      (u.updArb f fun a => { a with check := none }).judgeDp_table (f := f) (by rw [htables]; exact hf)
    simp only [State.updArb_fields, Table.get_upd_self, hrejudged] at hhours' hmanual' hsuppressed'
    rw [hgranted]
    refine ⟨hhours'.trans hhours, hmanual'.trans hmanual, fun h => hsuppressed' (h.imp id nofun),
      fun _ hnone => ?_⟩
    rw [hrejudged, hnone] at hcheck
    cases hcheck

end Sys2Proof.Machine
end

section
/-!
PROOFS. The abort of a backwash in WASH by a tank level (R123, R125): the pump and the valves are commanded before
anything else, and so a queue with room for two frames more takes both.
-/

namespace Sys2Proof.Machine

open Sys2Proof.Safety Sys2Proof.Claims

/-! ## The commands of an abort (R15, R125) -/

/-- A queue that is up and has a place, or holds the key, holds an offered command (R15). -/
theorem mem_ownAfter {x : Segment} {c : Cmd} (hup : x.state = .up ∨ x.state = .lost)
    (hroom : x.own.length < 24) : c ∈ ownAfter x c := by
  have hstate : ¬ (x.state ≠ .up ∧ x.state ≠ .lost) := fun hn => hup.elim hn.1 hn.2
  unfold ownAfter
  by_cases hkey : ∃ d ∈ x.own, OneKey d c
  · rw [if_neg hstate, if_pos hkey]
    obtain ⟨d, hd, hk⟩ := hkey
    exact List.mem_map.2 ⟨d, hd, if_pos hk⟩
  · rw [if_neg hstate, if_neg hkey, if_pos hroom]
    exact List.mem_append_right _ (List.mem_singleton.2 rfl)

/-- It takes the place of a command for the key (R15). -/
theorem ownAfter_place {x : Segment} {c d : Cmd} {n : Nat} (hup : x.state = .up ∨ x.state = .lost)
    (hd : x.own[n]? = some d) (hk : OneKey d c) : (ownAfter x c)[n]? = some c := by
  have hstate : ¬ (x.state ≠ .up ∧ x.state ≠ .lost) := fun hn => hup.elim hn.1 hn.2
  unfold ownAfter
  rw [if_neg hstate, if_pos ⟨d, List.mem_of_getElem? hd, hk⟩, List.getElem?_map, hd, Option.map_some,
    if_pos hk]

/-- A command for a key that no frame had waits behind the frames that waited. -/
theorem OwnGrows.behind {K : List (Option (Fin 48))} {s t : State} (h : OwnGrows K s t) {g : SegIx} {c : Cmd}
    (hnew : ∀ d ∈ (s.ports.segments.get g).own, ¬ OneKey d c) (hc : c ∈ (t.ports.segments.get g).own) :
    ∃ n : Nat, (s.ports.segments.get g).own.length ≤ n ∧ (t.ports.segments.get g).own[n]? = some c := by
  obtain ⟨n, hn⟩ := List.getElem?_of_mem hc
  refine ⟨n, ?_, hn⟩
  by_contra hlt
  obtain ⟨d, hd⟩ : ∃ d, (s.ports.segments.get g).own[n]? = some d :=
    ⟨_, List.getElem?_eq_getElem (not_le.1 hlt)⟩
  obtain ⟨v, hv, -⟩ := h.kept g n d hd
  rw [hn] at hv
  obtain rfl := Option.some.inj hv
  exact hnew d (List.mem_of_getElem? hd) ⟨rfl, rfl⟩

/-- A command originated after commands to the keys `K` waits, where the queue had room for them and for itself
(R15). -/
theorem OwnGrows.offers {K : List (Option (Fin 48))} {s t : State} (h : OwnGrows K s t) (x : PlantObject)
    (v : Nat) : Offers s (t.originate (t.entryOf x) v) (s.entryOf x) v (K.length + 1) := by
  intro hT q e g he hseg hup before after c
  have hown : after = ownAfter (t.ports.segments.get g) c := by
    have horiginated := t.originate_own (t.entryOf x) v g
    rw [State.entryOf_congr h.tables, he] at horiginated
    dsimp only at horiginated
    rw [State.segOfEntry_congr h.tables, if_pos (he ▸ hseg), commandTo_congr h.tables] at horiginated
    rw [← horiginated]
    simp only [after, State.entryOf_congr h.tables, he]
  rw [(State.originate_gate t _ v).segState g] at hup
  refine ⟨fun n d hd hk => ?_, fun hnew hroom => ?_⟩
  · obtain ⟨w, hw, -⟩ := h.kept g n d hd
    rw [hown]
    exact ownAfter_place hup hw hk
  · have hlength := h.length g
    refine (h.trans (t.originate_grows (t.entryOf x) v)).behind hnew ?_
    change c ∈ after
    rw [hown]
    exact mem_ownAfter hup (by simp only [before] at hroom; omega)

theorem offers_mono {s t : State} {k : Option (Fin 48)} {v m n : Nat} (h : Offers s t k v m)
    (hmn : m ≤ n) : Offers s t k v n := by
  intro hT q e g he hseg hup before after c
  obtain ⟨hplace, htail⟩ := h hT q e g he hseg hup
  exact ⟨hplace, fun hnew hroom => htail hnew ((Nat.add_le_add_left hmn _).trans hroom)⟩

/-- The stopped pump is commanded with room for one frame (R125). -/
theorem OwnGrows.pumpStopped {s t : State} (h : OwnGrows [] s t) :
    OwnGrows [s.pumpEntry] s t.pumpStopped ∧
      (t.seq.pumpRun = true → Offers s t.pumpStopped s.pumpEntry 0 1) := by
  unfold State.pumpStopped
  have hoff : OwnGrows [] s ((t.setPb false).setPump false) :=
    ⟨h.tables, h.kept, h.length⟩
  split
  · have hentry : ((t.setPb false).setPump false).pumpEntry = s.pumpEntry :=
      State.entryOf_congr hoff.tables .pump
    refine ⟨?_, fun _ => hoff.offers .pump 0⟩
    rw [hentry]
    exact hoff.quiet_trans (State.originate_grows _ _ _)
  · rename_i hrun
    exact ⟨h.mono (List.nil_subset _) (Nat.zero_le _), fun hr => absurd hr hrun⟩

/-- A move of the valves is commanded before the stage is reported. -/
theorem OwnGrows.beginMove {K : List (Option (Fin 48))} {s t : State} (h : OwnGrows K s t) (f : FilterIx)
    (b : Backwash) (v : Nat) :
    Offers s (t.beginMove f b .valves v) (s.valveEntry f) v (K.length + 1) := by
  unfold State.beginMove
  extract_lets u
  have hu : OwnGrows K s u := ⟨h.tables, h.kept, h.length⟩
  have hentry : u.originate (u.valveEntry f) v = u.originate (u.entryOf (.valves f)) v := rfl
  have hoffers := hu.offers (.valves f) v
  exact (State.gateBackwash_works _ _).offers_later (x := .valves f)
    ((State.originate_gate _ _ _).tables.trans hu.tables) hoffers id

section
variable {r p : State} {f : FilterIx} {b : Backwash} {c : AbortCause}

/-- The commands of an abort that nothing but notices precedes need room for two frames (R125). -/
theorem NoticesSent.abort_offers (h : NoticesSent r p) (hb : p.backwashOf f = some b)
    (hstage : b.stage ≠ .return) (habort : b.abort = none) (hc : c ≠ .supervisorAbort) :
    Offers r (p.abort f c) (r.valveEntry f) 1 2 ∧
      (r.seq.pumpRun = true → Offers r (p.abort f c) r.pumpEntry 0 2) := by
  obtain ⟨hgrows, hpump⟩ := h.grows.pumpStopped
  rw [p.abort_eq hb hstage habort hc, State.enterReturn_eq]
  obtain ⟨u, hu⟩ : ∃ u, u = p.pumpStopped := ⟨_, rfl⟩
  rw [← hu] at hgrows hpump ⊢
  obtain ⟨w, hw⟩ : ∃ w, w = if b.wetted = true ∧ b.rinsed = false
    then u.unrinsedNotice f c.cause b.stage else u := ⟨_, rfl⟩
  rw [← hw]
  have huw : Works (· = .valves f) u w ∧ OwnGrows [] u w := by
    rw [hw]
    split
    · refine ⟨u.unrinsedNotice_works (K := (· = .valves f)) rfl _ _, ?_⟩
      exact OwnGrows.quiet_trans (t := u.updFilter f _) (.of_same rfl rfl) (State.notify_grows _ _)
    · exact ⟨.refl _ u, .refl _ u⟩
  have hrw := hgrows.trans_quiet huw.2
  refine ⟨hrw.beginMove f _ 1, fun hrun => offers_mono ?_ (Nat.le_succ 1)⟩
  have hrunning : p.seq.pumpRun = true := by rw [h.quiet.frame.seq]; exact hrun
  exact (w.beginMove_works (K := (· ≠ .pump)) (f := f) nofun (fun x hx e => by subst e; exact hx) _ 1
    ).offers_later (x := .pump) hrw.tables
      (huw.1.offers_later (x := .pump) hgrows.tables (hpump hrunning) nofun) fun hn => hn rfl

/-- Such an abort sends the filter to RETURN (R125). -/
theorem NoticesSent.abort_returns (h : NoticesSent r p) (hb : r.backwashOf f = some b)
    (hstage : b.stage ≠ .return) (habort : b.abort = none) (hc : c ≠ .supervisorAbort)
    (hpb : r.pins.pb = true → r.seq.pumpRun = true) : AbortsToReturn r (p.abort f c) f b c 2 := by
  have hbp : p.backwashOf f = some b := (h.works.backwashOf f id).trans hb
  obtain ⟨hbackwash, hpbOff, hrun, hmarks, -, -⟩ := State.abort_returns (h.works.mono fun _ => False.elim)
    hbp hstage habort hc hpb
  obtain ⟨hvalves, hpump⟩ := h.abort_offers hbp hstage habort hc
  exact ⟨hbackwash, hpbOff, hrun, hmarks, hvalves, hpump⟩

end

/-! ## The tank levels (R123) -/

/-- What the tank levels give a backwash in WASH. -/
theorem State.tankAbort_table (s : State) :
    (s.reading balanceSlot = none ∨ s.reading sumpSlot = none → s.tankAbort = some .readingLost) ∧
      ∀ u v, s.reading balanceSlot = some u → s.reading sumpSlot = some v →
        (u < s.tables.params.supplyStop → s.tankAbort = some .supplyLow) ∧
        (s.tables.params.supplyStop ≤ u → s.tables.params.sumpStop < v →
          s.tankAbort = some .sumpFull) ∧
        (s.tables.params.supplyStop ≤ u → v ≤ s.tables.params.sumpStop → s.tankAbort = none) := by
  unfold State.tankAbort
  refine ⟨fun h => ?_, fun u v hu hv => ?_⟩
  · rcases h with h | h
    · rw [h]
    · rw [h]
      cases s.reading balanceSlot <;> rfl
  · rw [hu, hv]
    refine ⟨fun h => if_pos h, fun h h' => ?_, fun h h' => ?_⟩
    · exact (if_neg (by omega)).trans (if_pos h')
    · exact (if_neg (by omega)).trans (if_neg (by omega))

/-- It is never the supervisor's abort. -/
theorem State.tankAbort_ne {s : State} {c : AbortCause} (h : s.tankAbort = some c) :
    c ≠ .supervisorAbort := by
  unfold State.tankAbort at h
  split at h
  · split at h
    · cases h; nofun
    split at h
    · cases h; nofun
    · cases h
  · cases h; nofun

theorem State.judgeTanks_none (s : State) {f : FilterIx} (h : s.backwashOf f = none) :
    s.judgeTanks f = s := by
  unfold State.judgeTanks
  rw [h]

/-- The tank levels reach the backwash of no other filter, nor the Arbiter. -/
theorem State.judgeTanks_others (s : State) (f : FilterIx) :
    (∀ g, g ≠ f → (s.judgeTanks f).backwashOf g = s.backwashOf g) ∧
      (s.judgeTanks f).arbiter = s.arbiter := by
  unfold State.judgeTanks
  split
  · split
    · exact ⟨fun g hg => s.abort_others _ hg, s.abort_arbiter f _⟩
    · exact ⟨fun _ _ => rfl, rfl⟩
  · exact ⟨fun _ _ => rfl, rfl⟩

/-- Where one filter alone is in BACKWASH, it alone is judged (R123). -/
theorem State.forFilters_judgeTanks_one (s : State) {f : FilterIx}
    (h : ∀ g, g ≠ f → s.backwashOf g = none) : s.forFilters State.judgeTanks = s.judgeTanks f := by
  unfold State.forFilters
  refine foldl_at (P := fun t => t = s) (Q := fun t => t = s.judgeTanks f) (List.mem_finRange f)
    (List.nodup_finRange 8) (fun t g hg ht => ?_) (fun t ht => ?_) (fun t g hg ht => ?_) rfl
  · subst ht
    exact t.judgeTanks_none (h g hg)
  · rw [ht]
  · subst ht
    exact State.judgeTanks_none _ (((s.judgeTanks_others f).1 g hg).trans (h g hg))

/-- The report of a tank level judges the one filter in BACKWASH and grants none, for the Arbiter is busy
(R106, R123). -/
theorem State.reportTank_one (s : State) {f : FilterIx} (h : ∀ g, g ≠ f → s.backwashOf g = none)
    (hbusy : s.arbiter.busy = some f) :
    (s.forFilters State.judgeTanks).arbitrate = s.judgeTanks f := by
  rw [s.forFilters_judgeTanks_one h]
  unfold State.arbitrate
  rw [(s.judgeTanks_others f).2, hbusy]

/-- What the tank levels in `t` make of backwash `b` of filter `f`, from `r` to `t`. -/
abbrev TanksJudged (r t : State) (f : FilterIx) (b : Backwash) : Prop :=
  (b.stage ≠ .wash → t.backwashOf f = some b) ∧
    (b.stage = .wash → b.abort = none →
      (t.reading balanceSlot = none ∨ t.reading sumpSlot = none →
        AbortsToReturn r t f b .readingLost 2) ∧
      ∀ u v, t.reading balanceSlot = some u → t.reading sumpSlot = some v →
        (u < r.tables.params.supplyStop → AbortsToReturn r t f b .supplyLow 2) ∧
        (r.tables.params.supplyStop ≤ u → r.tables.params.sumpStop < v →
          AbortsToReturn r t f b .sumpFull 2) ∧
        (r.tables.params.supplyStop ≤ u → v ≤ r.tables.params.sumpStop → t.backwashOf f = some b))

theorem NoticesSent.judgeTanks {r p : State} {f : FilterIx} {b : Backwash} (h : NoticesSent r p)
    (hb : r.backwashOf f = some b) (hpb : r.pins.pb = true → r.seq.pumpRun = true) :
    TanksJudged r (p.judgeTanks f) f b := by
  have hbp : p.backwashOf f = some b := (h.works.backwashOf f id).trans hb
  have hreading : ∀ k, (p.judgeTanks f).reading k = p.reading k := (p.judgeTanks_wash f).reading
  have haborts : ∀ c, b.stage = .wash → b.abort = none → p.tankAbort = some c →
      AbortsToReturn r (p.judgeTanks f) f b c 2 := by
    intro c hwash habort hcause
    have hjudged : p.judgeTanks f = p.abort f c := by
      unfold State.judgeTanks
      rw [hbp, hcause]
      exact if_pos hwash
    rw [hjudged]
    exact h.abort_returns hb (by rw [hwash]; nofun) habort (State.tankAbort_ne hcause) hpb
  obtain ⟨hlost, hlevels⟩ := p.tankAbort_table
  refine ⟨fun hwash => ?_, fun hwash habort => ⟨fun hnone => ?_, fun u v hu hv => ?_⟩⟩
  · have hjudged : p.judgeTanks f = p := by
      unfold State.judgeTanks
      rw [hbp]
      split
      · rename_i heq _
        cases heq
        exact if_neg hwash
      · rfl
    rw [hjudged, hbp]
  · rw [hreading, hreading] at hnone
    exact haborts _ hwash habort (hlost hnone)
  · rw [hreading] at hu hv
    obtain ⟨hlow, hfull, hkept⟩ := hlevels u v hu hv
    rw [h.works.tables] at hlow hfull hkept
    refine ⟨fun hl => haborts _ hwash habort (hlow hl), fun hs hf => haborts _ hwash habort (hfull hs hf),
      fun hs hf => ?_⟩
    have hjudged : p.judgeTanks f = p := by
      unfold State.judgeTanks
      rw [hbp, hkept hs hf]
    rw [hjudged, hbp]

end Sys2Proof.Machine
end

section
/-!
PROOFS. The report of a slot that has taken new fields (R35): what it does to the reading blocks, whichever they are.
-/

namespace Sys2Proof.Machine

open Sys2Proof.Safety Sys2Proof.Claims

/-! ## To whom a slot is reported -/

section
variable {s : State} {k : SlotIx} {before : Option Nat}

theorem State.reportSlot_same (h : s.reading k = before) : s.reportSlot k before = s := if_pos h

theorem State.reportSlot_line (h : s.reading k ≠ before) (hk : k.val < 12) :
    s.reportSlot k before = s.gateReading k := (if_neg h).trans (if_pos hk)

theorem State.reportSlot_dp {f : FilterIx} (h : s.reading (dpSlot f) ≠ before) :
    s.reportSlot (dpSlot f) before = (s.rejudgeDp f).arbitrate := by
  have hslot : ¬ (dpSlot f).val < 12 := by simp [dpSlot]
  have hfilter : ixFrom 12 8 (dpSlot f).val = some f := ixFrom_val f (Nat.add_comm _ _)
  unfold State.reportSlot
  rw [if_neg h, if_neg hslot, hfilter]

theorem State.reportSlot_tank (hk : k = balanceSlot ∨ k = sumpSlot) (h : s.reading k ≠ before) :
    s.reportSlot k before = (s.forFilters State.judgeTanks).arbitrate := by
  have hslot : 20 ≤ k.val := by rcases hk with rfl | rfl <;> decide
  have hfilter : ixFrom 12 8 k.val = none := ixFrom_none (.inr hslot)
  unfold State.reportSlot
  rw [if_neg h, if_neg (by omega), hfilter]

end

/-- A report works on the objects of the Dose Gate, the Arbiter and the Sequencer only. -/
theorem State.reportSlot_worked (s : State) (k : SlotIx) (before : Option Nat) :
    Worked s (s.reportSlot k before) := by
  unfold State.reportSlot
  split
  · exact .refl _ s
  split
  · exact (s.gateReading_works k).worked
  split
  · exact Works.trans (.of_arbiter _ rfl) (State.arbitrate_works _ fun _ _ _ => trivial)
  · refine Works.trans (Works.foldl _ s fun t _ f _ => ?_) (State.arbitrate_works _ fun _ _ _ => trivial)
    unfold State.judgeTanks
    split
    · split
      · exact t.abort_works trivial (fun _ _ => trivial) trivial _
      · exact .refl _ t
    · exact .refl _ t

/-! ## The report -/

/-- A line that is told of LIMIT stands as the statement has it (R65). -/
theorem LimitTold.stands {s t : State} {k : SlotIx} {x : Slot} {i : LineIx}
    (hl : LimitTold (s.putSlot k x) t i) (hg : Governs s k i) (hn : (s.gate.get i).state ≠ .disabled) :
    let c := s.tables.lines.get i
    let old := (s.gate.get i).causes
    let new := (t.gate.get i).causes
    new = { old with limit := new.limit } ∧ LineFollows s t i ∧
      (s.modeNow = .commission → new.limit = false) ∧
      (s.modeNow ≠ .commission →
        (c.kind = .hypo → JudgedHigh (t.reading k) c.limit c.hysteresis old.limit new.limit) ∧
        (c.kind = .acid → JudgedLow (t.reading k) c.limit c.hysteresis old.limit new.limit)) := by
  have hlimit : (t.gate.get i).causes.limit =
      (s.putSlot k x).judgeLimit i (s.gate.get i).causes.limit := by
    rw [hl.causes]
    rfl
  refine ⟨?_, hl.lineFollows hn, ?_⟩
  · rw [hlimit, hl.causes]
    rfl
  · rw [hlimit, hl.worked.reading]
    exact (s.putSlot k x).judgeLimit_table (governs_iff.1 hg) _

section
variable {s p : State} {k : SlotIx} {x : Slot} (h : NoticesSent (s.putSlot k x) p)
include h

/-- The slots stand as written. -/
theorem NoticesSent.reportSlot_slots (before : Option Nat) :
    (p.reportSlot k before).slots.get k = x ∧
      ∀ j, j ≠ k → (p.reportSlot k before).slots.get j = s.slots.get j := by
  have hslots : (p.reportSlot k before).slots = s.slots.set k x := by
    rw [(p.reportSlot_wash k before).slots, h.works.slots]
    rfl
  rw [hslots]
  exact ⟨Table.get_set_self _ _ _, fun j hj => Table.get_set_ne _ _ hj⟩

/-- The lines that the slot governs take LIMIT, and no other line changes (R65). -/
theorem NoticesSent.gateReading :
    (∀ i : LineIx, Governs s k i → (s.gate.get i).state ≠ .disabled →
      LimitTold (s.putSlot k x) (p.gateReading k) i) ∧
    ∀ i : LineIx, ¬ Governs s k i → (p.gateReading k).gate.get i = s.gate.get i := by
  refine ⟨fun i hg hn => ?_, fun i hg => ?_⟩
  · exact State.gateReading_told h.works.worked (h.works.line i id) hn (governs_iff.1 hg)
  · have hnot : ¬ governedBy p.tables k (.line i) := by
      rw [h.works.tables]
      exact fun hk => hg (governs_iff.2 hk)
    exact ((p.gateReading_works k).line i hnot).trans (h.works.line i id)

/-- The change of the slot's reading is reported to its reading blocks (R35). -/
theorem NoticesSent.reported : ReadingReported s (p.reportSlot k (s.reading k)) k := by
  have hreading : (p.reportSlot k (s.reading k)).reading k = p.reading k :=
    (p.reportSlot_wash k _).reading k
  refine ⟨fun hsame => ?_, fun hchanged => ⟨fun i hg hn => ?_, fun hk i hg => ?_, fun f hf ha => ?_,
    fun hk hok f b hb => ?_⟩⟩
  · rw [hreading] at hsame
    rw [State.reportSlot_same hsame]
    exact ⟨h.quiet.gate, h.quiet.frame.arbiter, h.quiet.frame.seq⟩
  all_goals rw [hreading] at hchanged
  · rw [State.reportSlot_line hchanged (governing_lt (governs_iff.1 hg))]
    exact (h.gateReading.1 i hg hn).stands hg hn
  · rw [State.reportSlot_line hchanged hk]
    exact h.gateReading.2 i hg
  · subst hf
    have htables : p.tables = s.tables := h.works.tables
    have harbiter : p.arbiter = s.arbiter := h.quiet.frame.arbiter
    have hjudged := p.rejudgeDp_arbitrate (f := f) (by rw [htables]; exact ha)
    rw [hreading, State.reportSlot_dp hchanged, ← htables, ← harbiter]
    exact hjudged
  · have hothers : ∀ g, g ≠ f → p.backwashOf g = none := fun g hg =>
      (h.works.backwashOf g id).trans ((Washing.of hok hb).others hg)
    have hbusy : p.arbiter.busy = some f := by
      rw [h.quiet.frame.arbiter]
      exact (hok.1 f).1 (by rw [hb]; rfl)
    rw [State.reportSlot_tank hk hchanged, p.reportTank_one hothers hbusy]
    exact h.judgeTanks hb fun hpb => (hok.2.2 hpb).1

end

end Sys2Proof.Machine
end

section
/-!
PROOFS. The substitutes (R42-R45) and the readings that age (R39, R40) as the statements have them.
-/

namespace Sys2Proof.Machine

open Sys2Proof.Safety Sys2Proof.Claims

/-! ## Readings that age (R39, R43) -/

section
variable {s : State} {k : SlotIx} {v : Held}

theorem execSlotStale_stales (hsub : (s.slots.get k).sub = none)
    (hbase : (s.slots.get k).base = ⟨.valid, some v⟩) (hage : (s.tables.slots.get k).staleLimit < v.age) :
    ∃ t : State, exec (.slotStale k) s = .next t ∧ t.slots.get k = ⟨⟨.stale, some v⟩, none⟩ ∧
      Raised t ⟨.readingFault, .slot, k.val, .stale, v.age⟩ ∧ ReadingReported s t k ∧
      ∀ j, j ≠ k → t.slots.get j = s.slots.get j := by
  have hslot : s.slots.get k = ⟨⟨.valid, some v⟩, none⟩ := by rw [← hbase, ← hsub]
  obtain ⟨p, hp⟩ : ∃ p, p = (s.makeStale k).readingFault k .stale v.age := ⟨_, rfl⟩
  have hexec : exec (.slotStale k) s = .next (p.reportSlot k (s.reading k)) := by
    simp only [exec, execSlotStale]
    rw [if_pos ⟨hsub, State.tooOld_iff.2 ⟨v, hbase, hage⟩⟩, hp, State.reading, hbase]
    rfl
  have hnotices : NoticesSent (s.putSlot k ⟨⟨.stale, some v⟩, none⟩) p := by
    rw [hp, State.makeStale, hslot]
    exact (NoticesSent.refl _).readingFault k .stale v.age
  obtain ⟨hk, hothers⟩ := hnotices.reportSlot_slots (s.reading k)
  refine ⟨_, hexec, hk, (p.reportSlot_worked k _).raised _ ?_, hnotices.reported, hothers⟩
  rw [hp]
  exact State.notify_raised _ _

theorem execUnderlyingStale_stales {u : Substitute} (h : s.slots.get k = ⟨⟨.valid, some v⟩, some u⟩)
    (hage : (s.tables.slots.get k).staleLimit < v.age) :
    exec (.underlyingStale k) s = .next { s with slots := s.slots.set k ⟨⟨.stale, some v⟩, some u⟩ } := by
  have hold : s.tooOld k = true := State.tooOld_iff.2 ⟨v, by rw [h], hage⟩
  simp only [exec, execUnderlyingStale, State.makeStale]
  rw [if_pos ⟨by rw [h]; nofun, hold⟩, h]
  rfl

/-- Within the limit neither row acts (log entry 2). -/
theorem exec_stale_idle (hbase : (s.slots.get k).base = ⟨.valid, some v⟩)
    (hage : v.age ≤ (s.tables.slots.get k).staleLimit) :
    exec (.slotStale k) s = .next s ∧ exec (.underlyingStale k) s = .next s := by
  have hyoung : ¬ s.tooOld k = true := by
    rw [State.tooOld_iff]
    rintro ⟨w, hw, hold⟩
    rw [hbase] at hw
    cases hw
    exact absurd hage (not_le.2 hold)
  simp only [exec, execSlotStale, execUnderlyingStale]
  rw [if_neg fun hc => hyoung hc.2, if_neg fun hc => hyoung hc.2]
  exact ⟨rfl, rfl⟩

end

/-! ## The end of a substitute (R44, R45) -/

/-- The notices of a substitute's end (R40, R44). -/
def State.substituteNotices (s : State) (k : SlotIx) (cause : Cause) (u : Substitute) (r : Reading) : State :=
  let t := s.notify ⟨.substituteExpired, .slot, k.val, cause, u.value⟩
  match r.state with
  | .faulty c => t.readingFault k c.cause ((r.held.map Held.value).getD 0)
  | .stale => t.readingFault k .stale ((r.held.map Held.age).getD 0)
  | .absent | .valid => t

theorem State.endSubstitute_eq {s : State} {k : SlotIx} {u : Substitute} (cause : Cause)
    (h : (s.slots.get k).sub = some u) :
    s.endSubstitute k cause = ((s.putSlot k ⟨(s.slots.get k).base, none⟩).substituteNotices k cause u
      (s.slots.get k).base).reportSlot k (s.reading k) := by
  have hreading : s.reading k = some u.value := by rw [State.reading, Slot.effective, h]
  rw [hreading]
  unfold State.endSubstitute
  dsimp only
  rw [h]
  rfl

theorem State.substituteNotices_sent (s : State) (k : SlotIx) (cause : Cause) (u : Substitute) (r : Reading) :
    NoticesSent s (s.substituteNotices k cause u r) ∧
      Raised (s.substituteNotices k cause u r) ⟨.substituteExpired, .slot, k.val, cause, u.value⟩ ∧
      FaultsNoticed (s.substituteNotices k cause u r) k r := by
  unfold State.substituteNotices
  extract_lets t
  have ht : NoticesSent s t := (NoticesSent.refl s).notify _
  have hraised : Raised t ⟨.substituteExpired, .slot, k.val, cause, u.value⟩ := s.notify_raised _
  unfold FaultsNoticed
  cases r.state with
  | faulty c =>
    refine ⟨ht.readingFault k _ _, State.notify_keeps_raised hraised _, fun y hy => ?_, nofun⟩
    cases hy
    exact t.notify_raised _
  | stale =>
    exact ⟨ht.readingFault k _ _, State.notify_keeps_raised hraised _, nofun, fun _ => t.notify_raised _⟩
  | absent => exact ⟨ht, hraised, nofun, nofun⟩
  | valid => exact ⟨ht, hraised, nofun, nofun⟩

/-- A substitute ends with its notices, leaves what the samples gave, and its change is reported (R35, R44). -/
theorem State.endSubstitute_ends {s : State} {k : SlotIx} {u : Substitute} (cause : Cause)
    (h : (s.slots.get k).sub = some u) :
    let t := s.endSubstitute k cause
    t.slots.get k = ⟨(s.slots.get k).base, none⟩ ∧
      Raised t ⟨.substituteExpired, .slot, k.val, cause, u.value⟩ ∧
      FaultsNoticed t k (s.slots.get k).base ∧ ReadingReported s t k ∧
      ∀ j, j ≠ k → t.slots.get j = s.slots.get j := by
  dsimp only
  rw [State.endSubstitute_eq cause h]
  obtain ⟨hnotices, hexpired, hfaulty, hstale⟩ := State.substituteNotices_sent
    (s.putSlot k ⟨(s.slots.get k).base, none⟩) k cause u (s.slots.get k).base
  have hraised := (State.reportSlot_worked ((s.putSlot k ⟨(s.slots.get k).base, none⟩).substituteNotices
    k cause u (s.slots.get k).base) k (s.reading k)).raised
  obtain ⟨hk, hothers⟩ := hnotices.reportSlot_slots (s.reading k)
  exact ⟨hk, hraised _ hexpired, ⟨fun y hy => hraised _ (hfaulty y hy), fun hr => hraised _ (hstale hr)⟩,
    hnotices.reported, hothers⟩

theorem execSubstituteExpiry_ends {s : State} {k : SlotIx} {v : Nat}
    (h : (s.slots.get k).sub = some ⟨v, 0⟩) :
    exec (.substituteExpiry k) s = .next (s.endSubstitute k .expired) := by
  simp only [exec, execSubstituteExpiry, h, Option.map_some, if_true]

/-- CLEAR_SUBSTITUTE ends the substitute of the slot it names (R45). -/
theorem execClearSubstitute_ends {s : State} {tag x : Byte} {k : SlotIx} {u : Substitute} (hready : Ready s)
    (hm : s.modeNow = .supervised) (hx : x.toNat = k.val) (hk : k.val ≤ 11)
    (h : (s.slots.get k).sub = some u) :
    exec (.clearSubstitute tag [x]) s =
      .next ((s.endSubstitute k .cleared).respond ⟨15, tag, .done, []⟩) := by
  have hslot : substituteSlot [x] = some k := by
    have hix : ixFrom 0 22 x.toNat = some k := ixFrom_val k hx
    simp only [substituteSlot, ixArg, hix, if_pos hk]
  simp only [exec, execClearSubstitute]
  rw [State.manage_runs hready.1 (by rw [hm]; rfl) hready.2 hslot, h]
  rfl

/-- Settles O35: the two rows of an old reading, and the two ends of a substitute, with the report of the change. -/
theorem readingsAgeAndSubstitutesEnd : Obligations.ReadingsAgeAndSubstitutesEnd :=
  ⟨fun _ _ _ => execSlotStale_stales, fun _ _ _ _ => execUnderlyingStale_stales,
    fun _ _ _ => exec_stale_idle,
    fun _ _ _ h => ⟨_, execSubstituteExpiry_ends h, State.endSubstitute_ends .expired h⟩,
    fun _ _ _ _ _ hready hm hx hk h =>
      ⟨_, execClearSubstitute_ends hready hm hx hk h, State.endSubstitute_ends .cleared h⟩⟩

/-! ## SET_SUBSTITUTE (R42) -/

/-- A substitute stands on its slot with what the samples gave beneath it; the report of a FREE_CL or PH slot
reaches the Dose Gate only. -/
theorem State.putSubstitute_stands (s : State) {k : SlotIx} (hk : k.val ≤ 11) (v m : Nat) :
    let t := s.putSubstitute k v m
    t.slots.get k = ⟨(s.slots.get k).base, some ⟨v, m * 60⟩⟩ ∧
      (∀ j, j ≠ k → t.slots.get j = s.slots.get j) ∧ t.seq = s.seq ∧ t.arbiter = s.arbiter := by
  obtain ⟨r, hr⟩ : ∃ r, r = s.putSlot k ⟨(s.slots.get k).base, some ⟨v, m * 60⟩⟩ := ⟨_, rfl⟩
  have hput : s.putSubstitute k v m = r.reportSlot k (s.reading k) := by rw [hr]; rfl
  have hgate : GateFrame r (r.reportSlot k (s.reading k)) := by
    by_cases hsame : r.reading k = s.reading k
    · rw [State.reportSlot_same hsame]
      exact .refl r
    · rw [State.reportSlot_line hsame (by omega)]
      exact r.gateReading_gate k
  have hnotices : NoticesSent (s.putSlot k ⟨(s.slots.get k).base, some ⟨v, m * 60⟩⟩) r := hr ▸ .refl r
  obtain ⟨hslot, hothers⟩ := hnotices.reportSlot_slots (s.reading k)
  rw [hput]
  refine ⟨hslot, hothers, hgate.seq.trans ?_, hgate.arbiter.trans ?_⟩
  · rw [hr]; rfl
  · rw [hr]; rfl

/-- The ranges of R42. -/
theorem State.substituteArgs_eq {s : State} {x v1 v0 m : Byte} {k : SlotIx} (hx : x.toNat = k.val) :
    s.substituteArgs [x, v1, v0, m] =
      if k.val ≤ 11 ∧ (s.tables.slots.get k).minimum ≤ v1.toNat * 256 + v0.toNat ∧
          v1.toNat * 256 + v0.toNat ≤ (s.tables.slots.get k).maximum ∧ 1 ≤ m.toNat ∧ m.toNat ≤ 240
      then some (k, v1.toNat * 256 + v0.toNat, m.toNat) else none := by
  have hix : ixFrom 0 22 x.toNat = some k := ixFrom_val k hx
  have hnum : numOf [v1, v0] = v1.toNat * 256 + v0.toNat := by simp [numOf]
  simp only [State.substituteArgs, hix, hnum]

/-- Settles O36: SET_SUBSTITUTE in its ranges stands at once, and is BAD_ARG out of them. -/
theorem substituteIsSet : Obligations.SubstituteIsSet := by
  intro s tag x v1 v0 m k hready hm hx v ok
  have hmode : (s.modeNow == .supervised) = true := by rw [hm]; rfl
  refine ⟨fun hok => ⟨s.putSubstitute k v m.toNat, ?_, s.putSubstitute_stands hok.1 v m.toNat⟩,
    fun hnot => ?_⟩
  · simp only [exec, execSetSubstitute]
    rw [State.manage_runs hready.1 hmode hready.2 ((State.substituteArgs_eq hx).trans (if_pos hok))]
    rfl
  · simp only [exec, execSetSubstitute]
    rw [State.manage_badArg hready.1 hmode hready.2 ((State.substituteArgs_eq hx).trans (if_neg hnot))]
    rfl

end Sys2Proof.Machine
end

section
/-!
PROOFS. An event on one line (R54, R60, R63, R74, R76): what it leaves of the other lines, which own frame it offers, and
what the recompute leaves of the line where no other line doses at its point.
-/

namespace Sys2Proof.Machine

open Sys2Proof.Safety Sys2Proof.Claims

/-! ## The other lines -/

/-- From `s` to `t` nothing of another line than `i` has changed: not its fields, its permit or its programme. -/
structure OnlyLine (i : LineIx) (s t : State) : Prop where
  frame : GateFrame s t
  others : ∀ j, j ≠ i → t.gate.get j = s.gate.get j ∧ t.pins.permits.get j = s.pins.permits.get j ∧
    t.runner.progs.get j = s.runner.progs.get j

theorem OnlyLine.refl (i : LineIx) (s : State) : OnlyLine i s s := ⟨.refl s, fun _ _ => ⟨rfl, rfl, rfl⟩⟩

theorem OnlyLine.trans {i : LineIx} {s t u : State} (h : OnlyLine i s t) (k : OnlyLine i t u) : OnlyLine i s u where
  frame := h.frame.trans k.frame
  others j e := by
    obtain ⟨h1, h2, h3⟩ := h.others j e
    obtain ⟨k1, k2, k3⟩ := k.others j e
    exact ⟨k1.trans h1, k2.trans h2, k3.trans h3⟩

/-- A change that leaves every line, permit and programme. -/
theorem OnlyLine.of_quiet {i : LineIx} {s t : State} (h : QuietFrame s t) (hr : t.runner = s.runner) :
    OnlyLine i s t :=
  ⟨h.frame, fun _ _ => ⟨by rw [h.gate], by rw [h.permits], by rw [hr]⟩⟩

theorem State.notify_onlyLine (s : State) (i : LineIx) (n : Notice) : OnlyLine i s (s.notify n) :=
  .of_quiet (s.notify_quiet n) (by simp only [State.notify_fields])

@[simp] theorem State.originate_runner (s : State) (k : Option (Fin 48)) (v : Nat) :
    (s.originate k v).runner = s.runner := by
  unfold State.originate
  split
  · rfl
  · dsimp only
    split <;> rfl

@[simp] theorem State.originate_notices (s : State) (k : Option (Fin 48)) (v : Nat) :
    (s.originate k v).ports.notices = s.ports.notices := by
  unfold State.originate
  split
  · rfl
  · dsimp only
    split <;> rfl

theorem State.originate_onlyLine (s : State) (i : LineIx) (k : Option (Fin 48)) (v : Nat) :
    OnlyLine i s (s.originate k v) := .of_quiet (s.originate_quiet k v) (s.originate_runner k v)

theorem State.putProg_onlyLine (s : State) (i : LineIx) (p : Option Prog) : OnlyLine i s (s.putProg i p) :=
  ⟨s.putProg_gate i p, fun _ e => ⟨rfl, rfl, Table.get_set_ne _ _ e⟩⟩

theorem State.putLine_onlyLine (s : State) (i : LineIx) (l : Line) : OnlyLine i s (s.putLine i l) :=
  ⟨s.putLine_gate i l, fun j e => ⟨by simp [Table.get_set_ne _ _ e], by simp [Table.get_set_ne _ _ e],
    by simp [Table.get_upd_ne _ _ e]⟩⟩

theorem State.endProgramme_onlyLine (s : State) (i : LineIx) (c : Cause) : OnlyLine i s (s.endProgramme i c) := by
  unfold State.endProgramme
  split
  · exact .refl i s
  · exact (s.putProg_onlyLine i none).trans (State.notify_onlyLine _ _ _)

/-- The end of a programme leaves none on the line (R85). -/
@[simp] theorem State.endProgramme_prog (s : State) (i : LineIx) (c : Cause) :
    (s.endProgramme i c).runner.progs.get i = none := by
  unfold State.endProgramme
  split
  · assumption
  · simp

@[simp] theorem State.endProgramme_segments (s : State) (i : LineIx) (c : Cause) :
    (s.endProgramme i c).ports.segments = s.ports.segments := by
  unfold State.endProgramme
  split <;> simp

theorem State.endProgramme_keeps_raised {s : State} {n : Notice} (h : Raised s n) (i : LineIx) (c : Cause) :
    Raised (s.endProgramme i c) n := by
  unfold State.endProgramme
  split
  · exact h
  · exact State.notify_keeps_raised (s := s.putProg i none) h _

theorem State.excludeDrop_onlyLine (s : State) (i : LineIx) : OnlyLine i s (s.excludeDrop i) :=
  ((s.putLine_onlyLine i _).trans (State.notify_onlyLine _ _ _)).trans (State.endProgramme_onlyLine _ _ _)

/-! ## Own frames -/

/-- Where the queues stand as before, a later offer is the only one. -/
theorem offersOnly_of_ports {s t u : State} {k : Option (Fin 48)} {v : Nat} (h : OffersOnly t u k v)
    (htables : t.tables = s.tables) (hports : t.ports.segments = s.ports.segments) : OffersOnly s u k v := by
  intro g
  have hg := h g
  cases k with
  | none => exact hg.trans (by rw [hports])
  | some e =>
    dsimp only at hg ⊢
    rwa [hports, State.segOfEntry_congr htables, commandTo_congr htables] at hg

/-- Where the queues stay afterwards, the offer before is the only one. -/
theorem offersOnly_later {s t u : State} {k : Option (Fin 48)} {v : Nat} (h : OffersOnly s t k v)
    (hports : u.ports.segments = t.ports.segments) : OffersOnly s u k v := by
  intro g
  rw [hports]
  exact h g

theorem offersNone_of_ports {s t : State} (hports : t.ports.segments = s.ports.segments) : OffersNone s t := by
  intro g
  rw [hports]

/-! ## The recompute with no other line dosing (R54) -/

/-- Marking a programme paused twice over one state of the line is marking it once (R82). -/
theorem State.markPaused_twice {s t : State} (htables : t.tables = s.tables) (i : LineIx) {l m : Line}
    (hstate : m.state = l.state) (p : Prog) : t.markPaused i m (s.markPaused i l p) = s.markPaused i l p := by
  have hstep : ∀ q : Prog, t.stepOf i q = s.stepOf i q := fun q => by
    simp only [State.stepOf, State.stepIndex, State.stepAt, htables]
  simp only [State.markPaused, hstep, hstate]
  have hsame : s.stepOf i { p with paused := p.paused || !(l.state.counts (s.stepOf i p).rate) } = s.stepOf i p := rfl
  rw [hsame, Bool.or_assoc, Bool.or_self]

/-- The programme of a line after its fields have been written (R82). -/
theorem State.putLine_prog (s : State) (i : LineIx) (l : Line) :
    (s.putLine i l).runner.progs.get i = (s.runner.progs.get i).map (s.markPaused i l) := by
  simp

/-- What a recompute leaves where it finds no other line dosing at the point, or no rise from 0: the line at the rate
of R53, and, where that is a change, its echo awaited and the one own frame offered, unless a forwarded frame
carries the rate (R54, R57). -/
structure Recomputed (s t : State) (w : For) (i : LineIx) : Prop where
  same : (s.admittedRate i).1 = (s.gate.get i).admitted →
    t.gate.get i = { s.gate.get i with binding := (s.admittedRate i).2 } ∧ t.ports = s.ports
  changed : (s.admittedRate i).1 ≠ (s.gate.get i).admitted →
    t.gate.get i = { s.gate.get i with
      admitted := (s.admittedRate i).1, binding := (s.admittedRate i).2
      confirmation := .awaiting (some (s.tables.lines.get i).confirmLimit) }
  offers : (s.admittedRate i).1 ≠ (s.gate.get i).admitted → w ≠ .supervisor →
    OffersOnly s t (s.lineEntry i) (s.admittedRate i).1
  forwards : w = .supervisor → t.ports = s.ports
  notices : w ≠ .event ∨ (s.gate.get i).state ≠ .dosing → t.ports.notices = s.ports.notices
  prog : t.runner.progs.get i = (s.runner.progs.get i).map (s.markPaused i (s.gate.get i))
  line : OnlyLine i s t
  permit : t.PermitSet i

theorem Recomputed.admitted {s t : State} {w : For} {i : LineIx} (h : Recomputed s t w i) :
    (t.gate.get i).admitted = (s.admittedRate i).1 := by
  by_cases hr : (s.admittedRate i).1 = (s.gate.get i).admitted
  · rw [(h.same hr).1, hr]
  · rw [h.changed hr]

/-- Of a line's fields a recompute writes the admitted rate, the binding term and the confirmation. -/
theorem Recomputed.fields {s t : State} {w : For} {i : LineIx} (h : Recomputed s t w i) :
    t.gate.get i = { s.gate.get i with
      admitted := (s.admittedRate i).1, binding := (s.admittedRate i).2
      confirmation := (t.gate.get i).confirmation } := by
  by_cases hr : (s.admittedRate i).1 = (s.gate.get i).admitted
  · rw [(h.same hr).1, hr]
  · rw [h.changed hr]

theorem State.recompute_onlyLine (s : State) (w : For) (i : LineIx) : OnlyLine i s (s.recompute w i) := by
  unfold State.recompute
  extract_lets l r t u
  have ht : OnlyLine i s t := (s.putLine_onlyLine i _).trans (State.putLine_onlyLine _ i _)
  have hu : OnlyLine i s u := by
    unfold u
    split
    · exact ht
    · exact ht.trans (t.originate_onlyLine i _ _)
  split
  · exact s.excludeDrop_onlyLine i
  · split
    · exact s.putLine_onlyLine i _
    · split
      · exact hu.trans (u.notify_onlyLine i _)
      · exact hu

/-- Line `i` takes the rate of R53, with its echo awaited (R54). -/
def State.atNewRate (s : State) (i : LineIx) : State :=
  (s.putLine i { s.gate.get i with
    admitted := (s.admittedRate i).1, binding := (s.admittedRate i).2 }).startConfirm i

theorem State.atNewRate_line (s : State) (i : LineIx) : (s.atNewRate i).gate.get i = { s.gate.get i with
    admitted := (s.admittedRate i).1, binding := (s.admittedRate i).2
    confirmation := .awaiting (some (s.tables.lines.get i).confirmLimit) } := by
  unfold State.atNewRate State.startConfirm
  rw [State.putLine_get, State.putLine_get]
  rfl

theorem State.atNewRate_prog (s : State) (i : LineIx) : (s.atNewRate i).runner.progs.get i =
    (s.runner.progs.get i).map (s.markPaused i (s.gate.get i)) := by
  unfold State.atNewRate State.startConfirm
  rw [State.putLine_prog, State.putLine_prog, State.putLine_get, Option.map_map]
  congr 1
  funext p
  exact State.markPaused_twice (s := s) rfl i rfl p

/-- The new rate and, but for a supervisor's command, its frame to the pump (R54, R57). -/
def State.newRateSent (s : State) (w : For) (i : LineIx) : State :=
  if w = .supervisor then s.atNewRate i
  else (s.atNewRate i).originate ((s.atNewRate i).lineEntry i) (s.admittedRate i).1

theorem State.newRateSent_quiet (s : State) (w : For) (i : LineIx) :
    QuietFrame (s.atNewRate i) (s.newRateSent w i) ∧
      (s.newRateSent w i).runner = (s.atNewRate i).runner ∧
      (s.newRateSent w i).ports.notices = s.ports.notices := by
  unfold State.newRateSent
  split
  · exact ⟨.refl _, rfl, rfl⟩
  · exact ⟨State.originate_quiet _ _ _, State.originate_runner _ _ _, State.originate_notices _ _ _⟩

/-- The recompute of a changed rate is the new rate sent, with CLAMPED for an event that leaves the line below its
request (R54). -/
theorem State.recompute_changed (s : State) (w : For) (i : LineIx)
    (hx : (s.gate.get i).admitted = 0 → 0 < (s.admittedRate i).1 → s.otherDosing i = false)
    (hr : (s.admittedRate i).1 ≠ (s.gate.get i).admitted) :
    s.recompute w i =
      if w = .event ∧ (s.gate.get i).state = .dosing ∧ 0 < (s.admittedRate i).1 ∧
          (s.admittedRate i).1 < (s.gate.get i).requested then
        (s.newRateSent w i).notify
          ⟨.clamped, .line, i.val + 1, (s.admittedRate i).2.cause, (s.admittedRate i).1⟩
      else s.newRateSent w i := by
  have hdrop : ¬ ((s.gate.get i).admitted = 0 ∧ 0 < (s.admittedRate i).1 ∧ s.otherDosing i = true) := by
    rintro ⟨h1, h2, h3⟩
    rw [hx h1 h2] at h3
    contradiction
  unfold State.recompute
  dsimp only
  rw [if_neg hdrop, if_neg hr]
  rfl

/-- R54 where R60 does not drop the line. -/
theorem State.recompute_recomputed (s : State) (w : For) (i : LineIx)
    (hx : (s.gate.get i).admitted = 0 → 0 < (s.admittedRate i).1 → s.otherDosing i = false) :
    Recomputed s (s.recompute w i) w i := by
  by_cases hr : (s.admittedRate i).1 = (s.gate.get i).admitted
  · rw [s.recompute_same_rate w i hr]
    exact {
      same := fun _ => ⟨s.putLine_get i _, rfl⟩
      changed := fun h => absurd hr h
      offers := fun h => absurd hr h
      forwards := fun _ => rfl
      notices := fun _ => rfl
      prog := s.putLine_prog i _
      line := s.putLine_onlyLine i _
      permit := s.putLine_permit i _ }
  obtain ⟨hquiet, hrunner, hnotices⟩ := s.newRateSent_quiet w i
  have hline := s.atNewRate_line i
  rw [← hquiet.gate] at hline
  have hprog := s.atNewRate_prog i
  rw [← hrunner] at hprog
  have hoffers (hw : w ≠ .supervisor) :
      OffersOnly s (s.newRateSent w i) (s.lineEntry i) (s.admittedRate i).1 := by
    rw [State.newRateSent, if_neg hw]
    exact offersOnly_of_ports (State.originate_own _ _ _) rfl rfl
  have hforwards (hw : w = .supervisor) : (s.newRateSent w i).ports = s.ports := by
    rw [State.newRateSent, if_pos hw]; rfl
  refine {
    same := fun h => absurd h hr
    changed := fun _ => ?_
    offers := fun _ hw => ?_
    forwards := fun hw => ?_
    notices := fun hn => ?_
    prog := ?_
    line := s.recompute_onlyLine w i
    permit := (s.recompute_causes w i).2 }
  all_goals rw [s.recompute_changed w i hx hr]
  · split
    · simpa using hline
    · exact hline
  · split
    · exact offersOnly_later (hoffers hw) (by simp)
    · exact hoffers hw
  · rw [if_neg fun h => by rw [hw] at h; exact absurd h.1 (by decide)]
    exact hforwards hw
  · rw [if_neg fun h => hn.elim (· h.1) (· h.2.1)]
    exact hnotices
  · split
    · simpa using hprog
    · exact hprog

/-! ## The resume timer (R63) -/

/-- A line that is not DOSING, or is under a cause, is given no rate: no exclusion can meet it (R53, R60). -/
theorem State.recompute_idle (s : State) (w : For) (i : LineIx)
    (h : ¬ ((s.gate.get i).state = .dosing ∧ (s.gate.get i).causes.any = false)) :
    Recomputed s (s.recompute w i) w i :=
  s.recompute_recomputed w i fun _ hp => by rw [s.admittedRate_idle i h] at hp; exact absurd hp (Nat.lt_irrefl 0)

/-- The rate that line `i` has once it is written as DOSING a request of `v` (R53). -/
theorem State.putLine_admittedRate (s : State) (i : LineIx) (l : Line) (hl : l.state = .dosing) :
    ((s.putLine i l).admittedRate i).1 = if l.causes.any then 0 else rateFor s i l.requested := by
  by_cases hc : l.causes.any = true
  · rw [State.admittedRate_idle _ _ (by simp [hc]), if_pos hc]
  · rw [State.admittedRate_dosing _ _ (by simp [hc, hl]), if_neg hc, State.leastTerm_rateFor, State.putLine_get]
    rfl

/-- The line dropped for another that doses at its point (R60). -/
theorem State.excludeDrop_drops (s : State) (i : LineIx) :
    (s.excludeDrop i).gate.get i =
        { s.gate.get i with state := .stopped, requested := 0, source := .none, resume := 0 } ∧
      (s.excludeDrop i).runner.progs.get i = none ∧ OffersNone s (s.excludeDrop i) ∧
      Raised (s.excludeDrop i) ⟨.refused, .line, i.val + 1, .excluded, (s.gate.get i).requested⟩ :=
  ⟨by rw [(s.excludeDrop_quiet i).gate, State.putLine_get], State.endProgramme_prog _ _ _,
    offersNone_of_ports ((State.endProgramme_segments _ _ _).trans (by simp [State.refuse])),
    State.endProgramme_keeps_raised (State.notify_raised _ _) _ _⟩

/-- The line that takes up DOSING at the end of its resume delay (R63). -/
theorem State.resumeExpired_eq_doses (s : State) (i : LineIx) (hr : 0 < (s.gate.get i).requested)
    (hx : s.otherDosing i = false) : s.resumeExpired i =
      (s.putLine i { s.gate.get i with state := .dosing, resume := 0 }).recompute .event i := by
  unfold State.resumeExpired
  dsimp only
  rw [if_neg (by simp [hx]), if_neg (by omega)]

/-- A line's own fields do not show in whether another doses at its point (R60). -/
theorem State.putLine_otherDosing (s : State) (i : LineIx) (l : Line) :
    (s.putLine i l).otherDosing i = s.otherDosing i := by
  have hiff : (s.putLine i l).otherDosing i = false ↔ s.otherDosing i = false := by
    rw [State.otherDosing_false, State.otherDosing_false]
    refine forall₂_congr fun j hj => ?_
    rw [((s.putLine_onlyLine i l).others j hj).1]
    rfl
  cases h : s.otherDosing i
  · exact hiff.2 h
  · exact Bool.eq_true_of_not_eq_false fun e => by rw [hiff.1 e] at h; contradiction

/-- Settles O37: the three ends of a resume delay, and a timer that has not run out. -/
theorem resumeTimerEnds : Obligations.ResumeTimerEnds := by
  intro s i
  have hexec : exec (.resumeTimerExpiry i) s = .next (if (s.gate.get i).state = .resuming ∧
      (s.gate.get i).resume = 0 then s.resumeExpired i else s) := rfl
  refine ⟨fun hstate hresume hadmitted => ?_, fun hnot => ?_⟩
  · refine ⟨s.resumeExpired i, by rw [hexec, if_pos ⟨hstate, hresume⟩], fun hr hx => ?_, fun hr hx => ?_,
      fun hr => ?_, ?_⟩
    · rw [s.resumeExpired_eq_doses i hr hx]
      set p := s.putLine i { s.gate.get i with state := .dosing, resume := 0 }
      have hp : p.gate.get i = { s.gate.get i with state := .dosing, resume := 0 } := s.putLine_get i _
      have hpx : p.otherDosing i = false := (s.putLine_otherDosing i _).trans hx
      have h := p.recompute_recomputed .event i fun _ _ => hpx
      have hrate : (p.admittedRate i).1 = if (s.gate.get i).causes.any then 0
          else rateFor s i (s.gate.get i).requested := s.putLine_admittedRate i _ rfl
      refine ⟨by rw [h.fields, hp], by rw [h.fields, hp], by rw [h.fields, hp], h.admitted.trans hrate,
        fun hz => ?_, fun hz => ?_⟩
      · refine offersNone_of_ports ?_
        rw [(h.same (by rw [← h.admitted, hz, hp, hadmitted])).2]
        rfl
      · have hchanged : (p.admittedRate i).1 ≠ (p.gate.get i).admitted := by
          rw [← h.admitted, hp]; rwa [hadmitted]
        refine ⟨?_, by rw [h.changed hchanged]; rfl⟩
        rw [h.admitted]
        exact offersOnly_of_ports (h.offers hchanged (by decide)) rfl rfl
    · have hdrop : s.resumeExpired i = s.excludeDrop i := if_pos ⟨hr, hx⟩
      obtain ⟨hline, hprog, hown, hraised⟩ := s.excludeDrop_drops i
      rw [hdrop, hline]
      exact ⟨rfl, rfl, rfl, hprog, hown, hraised⟩
    · have hstop : s.resumeExpired i = s.putLine i { s.gate.get i with state := .stopped, resume := 0 } := by
        unfold State.resumeExpired
        dsimp only
        rw [if_neg (by omega), if_pos hr]
      rw [hstop, State.putLine_get]
      exact ⟨rfl, offersNone_of_ports rfl⟩
    · have hline : OnlyLine i s (s.resumeExpired i) := by
        unfold State.resumeExpired
        dsimp only
        split
        · exact s.excludeDrop_onlyLine i
        · split
          · exact s.putLine_onlyLine i _
          · exact (s.putLine_onlyLine i _).trans (State.recompute_onlyLine _ _ _)
      intro j hj
      obtain ⟨hgate, hpermit, -⟩ := hline.others j hj
      exact ⟨hgate, hpermit⟩
  · rw [hexec, if_neg fun h => hnot.elim (· h.1) (· h.2)]

/-! ## Faults (R73, R74, R76) -/

/-- A line that enters FAULTED (R74). -/
theorem State.faultLine_faults (s : State) (i : LineIx) (reason : LineFault) (value : Nat) :
    (s.faultLine i reason value).gate.get i = { s.gate.get i with
      state := .faulted, requested := 0, admitted := 0, source := .none, resume := 0
      fault := some reason, confirmation := .awaiting none } ∧
    (s.faultLine i reason value).pins.permits.get i = false ∧
    (s.faultLine i reason value).runner.progs.get i = none ∧
    OffersOnly s (s.faultLine i reason value) (s.lineEntry i) 0 ∧
    Raised (s.faultLine i reason value) ⟨.lineFault, .line, i.val + 1, reason.cause, value⟩ ∧
    OnlyLine i s (s.faultLine i reason value) := by
  unfold State.faultLine
  extract_lets l t
  have hquiet : QuietFrame t (((t.originate (t.lineEntry i) 0).notify
      ⟨.lineFault, .line, i.val + 1, reason.cause, value⟩).endProgramme i reason.cause) :=
    ((t.originate_quiet _ _).trans (State.notify_quiet _ _)).trans (State.endProgramme_quiet _ _ _)
  refine ⟨by rw [hquiet.gate]; exact s.putLine_get i _, ?_, State.endProgramme_prog _ _ _, ?_,
    State.endProgramme_keeps_raised (State.notify_raised _ _) _ _, ?_⟩
  · rw [hquiet.permits]
    simp [t, State.permitDue]
  · have hsent : OffersOnly s (t.originate (t.lineEntry i) 0) (s.lineEntry i) 0 :=
      offersOnly_of_ports (t.originate_own _ 0) rfl rfl
    exact offersOnly_later hsent ((State.endProgramme_segments _ _ _).trans (by simp))
  · exact (((s.putLine_onlyLine i _).trans (t.originate_onlyLine i _ _)).trans
      (State.notify_onlyLine _ _ _)).trans (State.endProgramme_onlyLine _ _ _)

/-- Settles O38: the expiry is the fault NO_ECHO of the line. -/
theorem unconfirmedLineFaults : Obligations.UnconfirmedLineFaults := by
  intro s i hawaiting hdisabled hfaulted hrestore
  obtain ⟨hline, hpermit, hprog, hown, hraised, honly⟩ := s.faultLine_faults i .noEcho (s.gate.get i).admitted
  refine ⟨s.faultLine i .noEcho (s.gate.get i).admitted, ?_, ?_⟩
  · exact congrArg Host.Outcome.next (if_pos ⟨hawaiting, hdisabled, hfaulted, hrestore⟩)
  · rw [hline]
    exact ⟨rfl, rfl, rfl, rfl, rfl, rfl, rfl, hpermit, hprog, hown, hraised, honly.others, honly.frame.tables,
      honly.frame.flow, honly.frame.slots, honly.frame.seq, honly.frame.arbiter, honly.frame.mode,
      honly.frame.clock⟩

/-- Settles O39: CLEAR_FAULT of a FAULTED line, and of another. -/
theorem clearedLineIsStopped : Obligations.ClearedLineIsStopped := by
  intro s tag x i hready hmode hx
  have hargs : faultArgs [5, x] = some (.line i) := by
    have hix : ixFrom 1 12 x.toNat = some i := ixFrom_val i hx
    simp [faultArgs, hix]
  have hexec : exec (.clearFaultLine tag [5, x]) s = .next ((s.clearLine i).finish .clearFault tag) :=
    congrArg Host.Outcome.next (State.manage_runs hready.1 hmode hready.2 hargs)
  rw [hexec]
  refine ⟨fun hfaulted => ?_, fun hnot => ?_⟩
  · set p := s.putLine i { s.gate.get i with
      fault := none, requested := 0, admitted := 0, source := .none
      state := if (s.gate.get i).causes.any then .inhibited else .stopped
      confirmation := .awaiting (some (s.tables.lines.get i).confirmLimit) } with hp
    have hclear : s.clearLine i = (p.originate (p.lineEntry i) 0).reply .done := if_pos hfaulted
    have hquiet := p.originate_quiet (p.lineEntry i) 0
    refine ⟨p.originate (p.lineEntry i) 0, by rw [hclear]; rfl, ?_⟩
    rw [hquiet.gate, hp, State.putLine_get]
    exact ⟨rfl, rfl, rfl, rfl, rfl, rfl, offersOnly_of_ports (p.originate_own _ 0) rfl rfl,
      fun j hj => ((s.putLine_onlyLine i _).others j hj).1⟩
  · have hclear : s.clearLine i = s.reply .noEntry := if_neg hnot
    rw [hclear]
    rfl

end Sys2Proof.Machine
end

section
/-!
PROOFS. A request for a line (R53-R58): the tests in their order, and what an accepted supervisor's rate leaves of the
line, of its forwarded queue and of the rest.
-/

namespace Sys2Proof.Machine

open Sys2Proof.Safety Sys2Proof.Claims

/-! ## The tests of R56 -/

section
variable {s : State} {i : LineIx} {v : Nat}

theorem State.lineTest_mode : s.lineTest i v false = some .mode := rfl

theorem State.lineTest_badValue (h : 60000 < v) : s.lineTest i v true = some .badValue := by
  simp [State.lineTest, h]

theorem State.lineTest_disabled (hv : v ≤ 60000) (h : (s.gate.get i).state = .disabled) :
    s.lineTest i v true = some .disabledLine := by
  simp [State.lineTest, hv, h]

theorem State.lineTest_faulted (hv : v ≤ 60000) (h : (s.gate.get i).state = .faulted) :
    s.lineTest i v true = some .faultedLine := by
  simp [State.lineTest, hv, h]

theorem State.lineTest_latched (hv : v ≤ 60000) (hd : (s.gate.get i).state ≠ .disabled)
    (hf : (s.gate.get i).state ≠ .faulted) {c : Cause} (h : (s.gate.get i).causes.firstLatched = some c) :
    s.lineTest i v true = some c := by
  simp [State.lineTest, hv, hd, hf, h]

/-- The last test, of a line that passes those before it. -/
theorem State.lineTest_last (hv : v ≤ 60000) (hd : (s.gate.get i).state ≠ .disabled)
    (hf : (s.gate.get i).state ≠ .faulted) (h : (s.gate.get i).causes.firstLatched = none) :
    s.lineTest i v true = if v ≠ 0 ∧ s.otherDosing i = true then some .excluded else none := by
  simp [State.lineTest, hv, hd, hf, h]

/-- A request above 0 passes only where no other line doses at the point. -/
theorem State.lineTest_free {b : Bool} (h : s.lineTest i v b = none) (hv : v ≠ 0) : s.otherDosing i = false := by
  unfold State.lineTest at h
  dsimp only at h
  split at h <;> try contradiction
  split at h <;> try contradiction
  split at h <;> try contradiction
  split at h <;> try contradiction
  split at h <;> try contradiction
  split at h
  · contradiction
  · rename_i hn
    simpa [hv] using hn

end

/-! ## The acceptance (R57, R58) -/

/-- Line `i` as an accepted request writes it before the recompute. -/
def State.withRequest (s : State) (i : LineIx) (v : Nat) (o : Source) : State :=
  s.putLine i { s.gate.get i with
    requested := v, source := o, state := if v = 0 then .stopped else .dosing }

@[simp] theorem State.withRequest_line (s : State) (i : LineIx) (v : Nat) (o : Source) :
    (s.withRequest i v o).gate.get i = { s.gate.get i with
      requested := v, source := o, state := if v = 0 then .stopped else .dosing } := s.putLine_get i _

/-- The rate of the line that takes a request: none for 0 or under a cause, else the least of its terms (R53). -/
theorem State.withRequest_rate (s : State) (i : LineIx) (v : Nat) (o : Source) :
    ((s.withRequest i v o).admittedRate i).1 =
      if v = 0 ∨ (s.gate.get i).causes.any = true then 0 else rateFor s i v := by
  by_cases hv : v = 0
  · rw [State.admittedRate_idle _ _ (by simp [hv]), if_pos (.inl hv)]
  · have hrate := s.putLine_admittedRate i { s.gate.get i with
      requested := v, source := o, state := if v = 0 then .stopped else .dosing } (if_neg hv)
    simp only [hv, false_or]
    exact hrate

/-- An accepted request is recomputed with no line to exclude it (R57, R58). -/
theorem State.act_recomputed (s : State) (w : For) (i : LineIx) (v : Nat) (o : Source)
    (hx : v ≠ 0 → s.otherDosing i = false) :
    Recomputed (s.withRequest i v o) (s.act w i v o) w i := by
  by_cases hv : v = 0
  · exact State.recompute_idle _ w i (by simp [hv])
  · exact State.recompute_recomputed _ w i fun _ _ => (s.putLine_otherDosing i _).trans (hx hv)

/-- PROGRAMME_OVERRIDDEN leaves the line as it was, with no programme (R57, R85). -/
theorem State.overrideProgramme_quiet (s : State) (i : LineIx) (v : Nat) :
    QuietFrame s (s.overrideProgramme i v) ∧ OnlyLine i s (s.overrideProgramme i v) ∧
      (s.overrideProgramme i v).runner.progs.get i = none ∧
      (s.overrideProgramme i v).ports.segments = s.ports.segments := by
  unfold State.overrideProgramme
  split
  · exact ⟨.refl s, .refl i s, by assumption, rfl⟩
  · exact ⟨(s.putProg_quiet i none).trans (State.notify_quiet _ _),
      (s.putProg_onlyLine i none).trans (State.notify_onlyLine _ _ _), by simp, by simp⟩

theorem State.startConfirm_onlyLine (s : State) (i : LineIx) : OnlyLine i s (s.startConfirm i) :=
  s.putLine_onlyLine i _

/-- Nothing but the lines, their permits and programmes, the own queues and the notices has changed. -/
theorem GateFrame.sameBlocks {s t : State} (h : GateFrame s t) : SameBlocks s t :=
  ⟨h.tables, h.flow, h.slots, h.clock, by rw [h.mode], by rw [h.mode], by rw [h.mode], by rw [h.mode],
    by rw [h.mode], h.store, h.write, h.plantStop, h.keyswitch, h.lockout⟩

/-- The least term of a request rests on what the Dose Gate does not change (R53). -/
theorem GateFrame.rateFor {s t : State} (h : GateFrame s t) (i : LineIx) (v : Nat) :
    rateFor t i v = rateFor s i v := by
  simp only [Claims.rateFor, h.tables, h.flowClass, State.blindApplies_congr h.offWash]

/-- The line as an accepted supervisor's rate leaves it, its echo awaited, before the frame is forwarded (R57). -/
def State.taken (s : State) (i : LineIx) (v : Nat) : State :=
  ((s.overrideProgramme i v).act .supervisor i v .supervisor).startConfirm i

theorem State.taken_line (s : State) (i : LineIx) (v : Nat) (hx : v ≠ 0 → s.otherDosing i = false) :
    ((s.taken i v).gate.get i).state = (if v = 0 then .stopped else .dosing) ∧
      ((s.taken i v).gate.get i).source = .supervisor ∧ ((s.taken i v).gate.get i).requested = v ∧
      ((s.taken i v).gate.get i).admitted =
        (if v = 0 ∨ (s.gate.get i).causes.any = true then 0 else rateFor s i v) ∧
      ((s.taken i v).gate.get i).confirmation = .awaiting (some (s.tables.lines.get i).confirmLimit) ∧
      (s.taken i v).runner.progs.get i = none ∧ OnlyLine i s (s.taken i v) ∧ (s.taken i v).PermitSet i := by
  obtain ⟨hquiet, honly, hprog, -⟩ := s.overrideProgramme_quiet i v
  set u := s.overrideProgramme i v with hu
  have hother : u.otherDosing i = s.otherDosing i := by
    simp only [State.otherDosing, hquiet.gate, hquiet.frame.tables]
  have h := u.act_recomputed .supervisor i v .supervisor fun hv => hother.trans (hx hv)
  have hrate : ((u.withRequest i v .supervisor).admittedRate i).1 =
      if v = 0 ∨ (s.gate.get i).causes.any = true then 0 else rateFor s i v := by
    rw [State.withRequest_rate, hquiet.gate, hquiet.frame.rateFor]
  have hline : (s.taken i v).gate.get i = { (u.act .supervisor i v .supervisor).gate.get i with
      confirmation := .awaiting (some ((u.act .supervisor i v .supervisor).tables.lines.get i).confirmLimit) } :=
    State.putLine_get _ i _
  have hwritten : OnlyLine i s (u.act .supervisor i v .supervisor) :=
    (honly.trans (u.putLine_onlyLine i _)).trans h.line
  rw [hline, h.fields, State.withRequest_line, hwritten.frame.tables]
  refine ⟨rfl, rfl, rfl, hrate, rfl, ?_, hwritten.trans (State.startConfirm_onlyLine _ _),
    State.putLine_permit _ _ _⟩
  rw [State.taken, State.startConfirm, State.putLine_prog, h.prog, State.withRequest, State.putLine_prog, hprog]
  rfl

/-- A line that passes the tests and does not wait takes the value, forwards its rate, and tells where the rate is
less (R57). -/
theorem State.lineCommand_taken (s : State) (k : Fin 48) (g : SegIx) (i : LineIx) (c : Cmd)
    (hm : (s.modeNow == .supervised || s.modeNow == .commission) = true)
    (ht : s.lineTest i c.value true = none) (hw : (s.gate.get i).state.holds = false) :
    s.lineCommand k g i c =
      if ((s.taken i c.value).gate.get i).admitted = c.value then
        (s.taken i c.value).forwardDown g { c with value := ((s.taken i c.value).gate.get i).admitted }
      else ((s.taken i c.value).forwardDown g
          { c with value := ((s.taken i c.value).gate.get i).admitted }).notify
        ⟨.clamped, .entry, k.val, ((s.taken i c.value).gate.get i).binding.cause,
          ((s.taken i c.value).gate.get i).admitted⟩ := by
  have hholds : (((s.overrideProgramme i c.value).gate.get i).state.holds) = false := by
    rw [(s.overrideProgramme_quiet i c.value).1.gate, hw]
  unfold State.lineCommand
  rw [hm, ht]
  dsimp only
  rw [if_neg (by simp [hholds])]
  rfl

/-- A frame joins the forwarded queue of its segment port (R14). -/
theorem State.forwardDown_queue (s : State) (g : SegIx) (c : Cmd) :
    ((s.forwardDown g c).ports.segments.get g).forwarded = (s.ports.segments.get g).forwarded ++ [c] := by
  simp

theorem sameBlocks_trans {s t u : State} (h : SameBlocks s t) (k : SameBlocks t u) : SameBlocks s u := by
  obtain ⟨h1, h2, h3, h4, h5, h6, h7, h8, h9, h10, h11, h12, h13, h14⟩ := h
  obtain ⟨k1, k2, k3, k4, k5, k6, k7, k8, k9, k10, k11, k12, k13, k14⟩ := k
  exact ⟨k1.trans h1, k2.trans h2, k3.trans h3, k4.trans h4, k5.trans h5, k6.trans h6, k7.trans h7, k8.trans h8,
    k9.trans h9, k10.trans h10, k11.trans h11, k12.trans h12, k13.trans h13, k14.trans h14⟩

/-- What is kept and what is forwarded when a supervisor's rate is taken (R57). -/
theorem State.lineCommand_takes (s : State) (k : Fin 48) (g : SegIx) (i : LineIx) (c : Cmd)
    (hm : (s.modeNow == .supervised || s.modeNow == .commission) = true)
    (ht : s.lineTest i c.value true = none) (hw : (s.gate.get i).state.holds = false) :
    let t := s.lineCommand k g i c
    let l := (s.taken i c.value).gate.get i
    t.gate.get i = l ∧
      (t.ports.segments.get g).forwarded =
        (s.ports.segments.get g).forwarded ++ [{ c with value := l.admitted }] ∧
      (∀ j, j ≠ i → t.gate.get j = s.gate.get j ∧ t.pins.permits.get j = s.pins.permits.get j ∧
        t.runner.progs.get j = s.runner.progs.get j) ∧
      t.runner.progs.get i = none ∧ t.pins.permits.get i = (s.taken i c.value).permitDue i ∧
      SameBlocks s t ∧ t.seq = s.seq ∧ t.arbiter = s.arbiter := by
  dsimp only
  set u := s.taken i c.value with hu
  obtain ⟨-, -, -, -, -, hprog, honly, hpermit⟩ := s.taken_line i c.value fun hv => State.lineTest_free ht hv
  rw [← hu] at hprog honly hpermit
  set w := u.forwardDown g { c with value := (u.gate.get i).admitted } with hwdef
  have htold : QuietFrame w (s.lineCommand k g i c) ∧ (s.lineCommand k g i c).runner = w.runner := by
    rw [s.lineCommand_taken k g i c hm ht hw, ← hu, ← hwdef]
    split
    · exact ⟨.refl w, rfl⟩
    · exact ⟨w.notify_quiet _, by simp⟩
  obtain ⟨hquiet, hrunner⟩ := htold
  have hgate : w.gate = u.gate := rfl
  have hpins : w.pins = u.pins := rfl
  have hrun : w.runner = u.runner := rfl
  refine ⟨by rw [hquiet.gate, hgate], ?_, fun j hj => ?_, by rw [hrunner, hrun, hprog], ?_, ?_, ?_, ?_⟩
  · rw [hquiet.frame.segForwarded, hwdef, State.forwardDown_queue, honly.frame.segForwarded]
  · rw [hquiet.gate, hquiet.permits, hrunner, hgate, hpins, hrun]
    exact honly.others j hj
  · rw [hquiet.permits, hpins]
    exact hpermit
  · have hforward : SameBlocks u w := ⟨rfl, rfl, rfl, rfl, rfl, rfl, rfl, rfl, rfl, rfl, rfl, rfl, rfl, rfl⟩
    exact sameBlocks_trans (sameBlocks_trans honly.frame.sameBlocks hforward) hquiet.frame.sameBlocks
  · rw [hquiet.frame.seq]; exact honly.frame.seq
  · rw [hquiet.frame.arbiter]; exact honly.frame.arbiter

/-- The permit of a line that has taken a request in SUPERVISED or COMMISSION (R55, R57). -/
theorem State.taken_permit (s : State) (i : LineIx) (v : Nat) (hx : v ≠ 0 → s.otherDosing i = false)
    (hm : s.modeNow = .supervised ∨ s.modeNow = .commission) :
    (s.taken i v).permitDue i =
      (decide (0 < if v = 0 ∨ (s.gate.get i).causes.any = true then 0 else rateFor s i v)
        && !(s.flowClass (s.tables.lines.get i).circuit).starved && !s.pins.plantStop) := by
  obtain ⟨hstate, -, -, hadmitted, -, -, honly, -⟩ := s.taken_line i v hx
  have hpermits : s.modeNow.permits = true := by rcases hm with hm | hm <;> rw [hm] <;> rfl
  unfold State.permitDue
  dsimp only
  rw [hstate, hadmitted, honly.frame.tables, honly.frame.flowClass, honly.frame.plantStop,
    honly.frame.modeNow, hpermits, Bool.and_true]
  by_cases hv : v = 0
  · simp [hv]
  · simp [hv]

/-- A line that waits keeps the value with its fields (R57 HELD). -/
theorem State.lineCommand_held (s : State) (k : Fin 48) (g : SegIx) (i : LineIx) (c : Cmd)
    (hm : (s.modeNow == .supervised || s.modeNow == .commission) = true)
    (ht : s.lineTest i c.value true = none) (hw : (s.gate.get i).state.holds = true) :
    let t := s.lineCommand k g i c
    t.gate.get i = { s.gate.get i with requested := c.value, source := .supervisor } ∧
      OnlyLine i s t ∧ t.runner.progs.get i = none ∧ t.ports.segments = s.ports.segments := by
  obtain ⟨hquiet, honly, hprog, hports⟩ := s.overrideProgramme_quiet i c.value
  unfold State.lineCommand
  rw [hm, ht]
  dsimp only
  rw [if_pos (by rw [hquiet.gate]; exact hw)]
  refine ⟨?_, (honly.trans (State.putLine_onlyLine _ i _)).trans (State.notify_onlyLine _ _ _), ?_, ?_⟩
  · simp [State.refuse, hquiet.gate]
  · simp [State.refuse, hprog]
  · simp [State.refuse, hports]

/-- A command that fails a test is refused with its cause (R56). -/
theorem State.lineCommand_refused (s : State) (k : Fin 48) (g : SegIx) (i : LineIx) (c : Cmd) {x : Cause}
    (ht : s.lineTest i c.value (s.modeNow == .supervised || s.modeNow == .commission) = some x) :
    s.lineCommand k g i c = s.notify ⟨.refused, .entry, k.val, x, c.value⟩ := by
  unfold State.lineCommand
  rw [ht]
  rfl

/-- A supervisor's command on a dose line's key reaches the line (R10, R13). -/
theorem execStationCommand_line {s : State} {d : Byte} {n : Fin 8} {v : Half} {g : SegIx} {k : Fin 48}
    {i : LineIx} (hd : d.isStation = true) (hg : s.segOf d.toNat = some g)
    (hup : s.segState g = .up ∨ s.segState g = .lost) (hroom : (s.ports.segments.get g).forwarded.length < 16)
    (hk : s.lookupKey d.toNat n.val = some k) (ho : (s.tables.admission.get k).object = .doseLine)
    (hi : (s.tables.admission.get k).objectIndex = i.val + 1) :
    exec (.stationCommand d n v) s = .next (s.lineCommand k g i ⟨d.toNat, n.val, v.toNat⟩) := by
  have hcut : (s.segState g).cutOff = false := by rcases hup with h | h <;> rw [h] <;> rfl
  have hix : ixFrom 1 12 (s.tables.admission.get k).objectIndex = some i := ixFrom_val i hi
  have hplaces : ¬ Config.forwardedPlaces ≤ (s.ports.segments.get g).forwarded.length := Nat.not_le.2 hroom
  have hentry (m : Cmd) : s.admitByEntry k g m = s.lineCommand k g i m := by
    unfold State.admitByEntry
    simp only [ho, hix]
  simp only [exec, execStationCommand, if_pos hd, State.stationCommand, hg, hcut, hk, if_neg hplaces, hentry]
  rfl

/-- Settles O23: the acceptance above 0, of 0, of a line that waits, and the refusals in their order. -/
theorem rateCommandIsTakenOrRefused : Obligations.RateCommandIsTakenOrRefused := by
  intro s d n v g k i hd hg hup hroom hk ho hi l modeOk open' waits refused takes
  have hexec : exec (.stationCommand d n v) s = _ := execStationCommand_line hd hg hup hroom hk ho hi
  have hbool (hm : modeOk) : (s.modeNow == .supervised || s.modeNow == .commission) = true := by
    rcases hm with hm | hm <;> rw [hm] <;> rfl
  have hdoor (h : open' ∨ waits) : l.state ≠ .disabled ∧ l.state ≠ .faulted := by
    rcases h with (h | h) | (h | h) <;> rw [h] <;> exact ⟨nofun, nofun⟩
  have hrefused {c : Cause} (h : s.lineTest i v.toNat
      (s.modeNow == .supervised || s.modeNow == .commission) = some c) : refused c :=
    hexec.trans (congrArg Host.Outcome.next (s.lineCommand_refused k g i _ h))
  have htakes (hm : modeOk) (ho : open') (hc : l.causes = Causes.empty) (hv : v.toNat ≤ 60000)
      (hx : v.toNat ≠ 0 → s.otherDosing i = false) :
      takes (if v.toNat = 0 then .stopped else .dosing) (if v.toNat = 0 then 0 else rateFor s i v.toNat) := by
    obtain ⟨hdisabled, hfaulted⟩ := hdoor (.inl ho)
    have htest : s.lineTest i v.toNat true = none := by
      rw [State.lineTest_last hv hdisabled hfaulted (by rw [show (s.gate.get i).causes = _ from hc]; rfl)]
      exact if_neg fun h => by rw [hx h.1] at h; exact absurd h.2 (by decide)
    have hholds : (s.gate.get i).state.holds = false := by rcases ho with h | h <;> rw [show _ = _ from h] <;> rfl
    have hany : (s.gate.get i).causes.any = false := by rw [show (s.gate.get i).causes = _ from hc]; rfl
    obtain ⟨hline, hforward, hothers, hprog, hpermit, hblocks, hseq, harbiter⟩ :=
      s.lineCommand_takes k g i ⟨d.toNat, n.val, v.toNat⟩ (hbool hm) htest hholds
    obtain ⟨hstate, hsource, hrequested, hadmitted, hconfirmation, -, -, -⟩ := s.taken_line i v.toNat hx
    have hdue := s.taken_permit i v.toNat hx hm
    simp only [hany, or_false, Bool.false_eq_true] at hadmitted hdue
    rw [hadmitted] at hforward
    exact ⟨_, hexec, by rw [hline, hstate], by rw [hline, hsource], by rw [hline, hrequested],
      by rw [hline, hadmitted], by rw [hline, hconfirmation], hforward, hothers, hprog, hpermit.trans hdue,
      hblocks, hseq, harbiter⟩
  refine ⟨fun hm hpos hv hopen hc hx => ?_, fun hm hz hopen hc => ?_, fun hm hv hwaits hl hx => ?_,
    fun hm => hrefused ?_, fun hm hv => hrefused ?_, fun hm hv hs => hrefused ?_, fun hm hv hs => hrefused ?_,
    fun hm hv hopen c hc => hrefused ?_, fun hm hpos hv hopen hl hx => hrefused ?_⟩
  · have h := htakes hm hopen hc hv fun _ => hx
    rwa [if_neg (Nat.pos_iff_ne_zero.1 hpos), if_neg (Nat.pos_iff_ne_zero.1 hpos)] at h
  · have h := htakes hm hopen hc (by omega) fun hne => absurd hz hne
    rwa [if_pos hz, if_pos hz] at h
  · obtain ⟨hdisabled, hfaulted⟩ := hdoor (.inr hwaits)
    have htest : s.lineTest i v.toNat true = none := by
      rw [State.lineTest_last hv hdisabled hfaulted hl]
      exact if_neg fun h => by rw [hx h.1] at h; exact absurd h.2 (by decide)
    have hholds : (s.gate.get i).state.holds = true := by
      rcases hwaits with h | h <;> rw [show _ = _ from h] <;> rfl
    obtain ⟨hline, honly, hprog, hports⟩ :=
      s.lineCommand_held k g i ⟨d.toNat, n.val, v.toNat⟩ (hbool hm) htest hholds
    exact ⟨_, hexec, hline, honly.others, hprog, hports, honly.frame.sameBlocks, honly.frame.seq,
      honly.frame.arbiter⟩
  · have hfalse : (s.modeNow == .supervised || s.modeNow == .commission) = false := by
      simp only [Bool.or_eq_false_iff, beq_eq_false_iff_ne]
      exact not_or.1 hm
    rw [hfalse]; exact State.lineTest_mode
  · rw [hbool hm]; exact State.lineTest_badValue hv
  · rw [hbool hm]; exact State.lineTest_disabled hv hs
  · rw [hbool hm]; exact State.lineTest_faulted hv hs
  · rw [hbool hm]; exact State.lineTest_latched hv (hdoor hopen).1 (hdoor hopen).2 hc
  · rw [hbool hm, State.lineTest_last hv (hdoor hopen).1 (hdoor hopen).2 hl]
    exact if_pos ⟨Nat.pos_iff_ne_zero.1 hpos, hx⟩

end Sys2Proof.Machine
end

section
/-!
PROOFS. A programme's step begins, is refused or ends, and the line is released (R58, R59, R81-R85, R89, R90).
-/

namespace Sys2Proof.Machine

open Sys2Proof.Safety Sys2Proof.Claims

/-! ## The release (R59, R85) -/

/-- A release withdraws the programme's request: the line stops, and its pump is sent 0 if it was admitted a rate. -/
structure Released (s t : State) (i : LineIx) : Prop where
  mine : (s.gate.get i).source = .programme →
    (t.gate.get i).requested = 0 ∧ (t.gate.get i).source = .none ∧ (t.gate.get i).admitted = 0 ∧
      (t.gate.get i).state =
        (if (s.gate.get i).state = .dosing ∨ (s.gate.get i).state = .resuming then .stopped
          else (s.gate.get i).state)
  other : (s.gate.get i).source ≠ .programme → t.gate = s.gate
  pump : StopsPump s t i
  notices : t.ports.notices = s.ports.notices
  prog : s.runner.progs.get i = none → t.runner.progs.get i = none
  line : OnlyLine i s t

theorem State.zeroRequest_released (s : State) (i : LineIx) (h : (s.gate.get i).source = .programme) :
    Released s (s.zeroRequest i) i := by
  set p := s.putLine i { s.gate.get i with
    requested := 0, source := .none
    state := if (s.gate.get i).state = .dosing ∨ (s.gate.get i).state = .resuming then .stopped
      else (s.gate.get i).state
    resume := 0 } with hp
  have hzero : s.zeroRequest i = p.recompute .event i := rfl
  have hline := s.putLine_get i { s.gate.get i with
    requested := 0, source := .none
    state := if (s.gate.get i).state = .dosing ∨ (s.gate.get i).state = .resuming then .stopped
      else (s.gate.get i).state
    resume := 0 }
  rw [← hp] at hline
  have hstopped : (p.gate.get i).state ≠ .dosing := by
    rw [hline]
    dsimp only
    split
    · exact nofun
    · rename_i hn
      exact fun e => hn (.inl e)
  have hr := p.recompute_idle .event i fun e => hstopped e.1
  have hrate : (p.admittedRate i).1 = 0 := by rw [p.admittedRate_idle i fun e => hstopped e.1]
  rw [hzero]
  refine {
    mine := fun _ => ?_
    other := fun hn => absurd h hn
    pump := ⟨fun _ hne => ?_, fun hidle => ?_⟩
    notices := hr.notices (.inr hstopped)
    prog := fun hn => ?_
    line := (s.putLine_onlyLine i _).trans hr.line }
  · rw [hr.fields, hrate, hline]
    exact ⟨rfl, rfl, rfl, rfl⟩
  · have hchanged : (p.admittedRate i).1 ≠ (p.gate.get i).admitted := by
      rw [hrate, hline]; exact Ne.symm hne
    refine ⟨?_, by rw [hr.changed hchanged]; rfl⟩
    have hsent := hr.offers hchanged nofun
    rw [hrate] at hsent
    exact offersOnly_of_ports hsent rfl rfl
  · have hz : (s.gate.get i).admitted = 0 := hidle.resolve_left fun hn => hn h
    have hsame : (p.admittedRate i).1 = (p.gate.get i).admitted := by rw [hrate, hline]; exact hz.symm
    refine offersNone_of_ports ?_
    rw [(hr.same hsame).2]
    rfl
  · rw [hr.prog, hp, State.putLine_prog, hn]
    rfl

theorem State.release_released (s : State) (i : LineIx) : Released s (s.release i) i := by
  by_cases h : (s.gate.get i).source = .programme
  · have hzero : s.release i = s.zeroRequest i := if_pos h
    rw [hzero]
    exact s.zeroRequest_released i h
  · have hsame : s.release i = s := if_neg h
    rw [hsame]
    exact {
      mine := fun h' => absurd h' h
      other := fun _ => rfl
      pump := ⟨fun h' => absurd h' h, fun _ _ => rfl⟩
      notices := rfl
      prog := id
      line := .refl i s }

/-! ## Before a step begins or ends -/

/-- From `s` to `r` the notices `before` have been sent; of what a step's beginning and a programme's end rest on, the
programme of line `i` alone may have changed. -/
structure Readied (s r : State) (i : LineIx) (before : List Notice) : Prop where
  tables : r.tables = s.tables
  gate : r.gate = s.gate
  segments : r.ports.segments = s.ports.segments
  modeNow : r.modeNow = s.modeNow
  rate : ∀ v, rateFor r i v = rateFor s i v
  others : ∀ j, j ≠ i → r.runner.progs.get j = s.runner.progs.get j
  notices : s.ports.notices.length + before.length < 32 → r.ports.notices = s.ports.notices ++ before

theorem Readied.refl (s : State) (i : LineIx) : Readied s s i [] :=
  ⟨rfl, rfl, rfl, rfl, fun _ => rfl, fun _ _ => rfl, fun _ => by simp⟩

/-- A programme set or cleared. -/
theorem Readied.putProg {s r : State} {i : LineIx} {before : List Notice} (h : Readied s r i before)
    (p : Option Prog) : Readied s (r.putProg i p) i before where
  tables := h.tables
  gate := h.gate
  segments := h.segments
  modeNow := h.modeNow
  rate v := h.rate v
  others j hj := (Table.get_set_ne _ _ hj).trans (h.others j hj)
  notices := h.notices

theorem Readied.notify (s : State) (i : LineIx) (n : Notice) : Readied s (s.notify n) i [n] where
  tables := (s.notify_quiet n).frame.tables
  gate := (s.notify_quiet n).gate
  segments := by simp
  modeNow := (s.notify_quiet n).frame.modeNow
  rate v := (s.notify_quiet n).frame.rateFor i v
  others j _ := by simp
  notices hroom := s.notify_notices n (Nat.lt_of_succ_lt hroom)

/-- The tests of a request see what they saw before. -/
theorem Readied.lineTest {s r : State} {i : LineIx} {before : List Notice} (h : Readied s r i before)
    (v : Nat) (b : Bool) : r.lineTest i v b = s.lineTest i v b := by
  have hother : r.otherDosing i = s.otherDosing i := by simp only [State.otherDosing, h.gate, h.tables]
  unfold State.lineTest
  rw [h.gate, hother]

/-- An own frame offered after the notices is the only one from before them. -/
theorem Readied.offersOnly {s r t : State} {i : LineIx} {before : List Notice} (h : Readied s r i before)
    {v : Nat} (ht : OffersOnly r t (r.lineEntry i) v) : OffersOnly s t (s.lineEntry i) v := by
  have hentry : r.lineEntry i = s.lineEntry i := State.entryOf_congr h.tables (.line i)
  rw [hentry] at ht
  exact offersOnly_of_ports ht h.tables h.segments

theorem Readied.offersNone {s r t : State} {i : LineIx} {before : List Notice} (h : Readied s r i before)
    (ht : OffersNone r t) : OffersNone s t := by
  intro g
  rw [ht g, h.segments]

/-! ## The end of a programme (R85) -/

/-- PROGRAMME_END of a programme on the line. -/
theorem State.endProgramme_eq {s : State} {i : LineIx} {p : Prog} (h : s.runner.progs.get i = some p)
    (c : Cause) : s.endProgramme i c = (s.putProg i none).notify
      ⟨.programmeEnd, .line, i.val + 1, c, s.stepIndex i p.which p.position⟩ := by
  simp only [State.endProgramme, h]

/-- A programme that ends, after what has been sent before. -/
theorem Readied.endAndRelease {s r : State} {i : LineIx} {before : List Notice} (h : Readied s r i before)
    {p : Prog} (hp : r.runner.progs.get i = some p) (c : Cause) :
    ProgrammeEnds s (r.endAndRelease i c) i c (r.stepIndex i p.which p.position) before := by
  set e := r.endProgramme i c with he
  have hquiet : QuietFrame r e := r.endProgramme_quiet i c
  have honly : OnlyLine i r e := r.endProgramme_onlyLine i c
  have hsegments : e.ports.segments = r.ports.segments := r.endProgramme_segments i c
  have hrel : Released e (e.release i) i := e.release_released i
  have hgate : e.gate = s.gate := hquiet.gate.trans h.gate
  have hentry : e.lineEntry i = s.lineEntry i :=
    State.entryOf_congr (hquiet.frame.tables.trans h.tables) (.line i)
  have htables : e.tables = s.tables := hquiet.frame.tables.trans h.tables
  have hports : e.ports.segments = s.ports.segments := hsegments.trans h.segments
  obtain ⟨hsent, hnone⟩ := hrel.pump
  have hmine := hrel.mine
  have hother := hrel.other
  rw [hgate] at hmine hother hsent hnone
  refine ⟨hrel.prog (r.endProgramme_prog i c), hmine, hother, ⟨fun hs hne => ?_, fun hs g => ?_⟩,
    fun j hj => ?_, fun hroom => ?_⟩
  · obtain ⟨hown, hconfirm⟩ := hsent hs hne
    rw [hentry] at hown
    rw [htables] at hconfirm
    exact ⟨offersOnly_of_ports hown htables hports, hconfirm⟩
  · rw [← hports]
    exact hnone hs g
  · obtain ⟨h1, -, h2⟩ := (honly.trans hrel.line).others j hj
    exact ⟨h1.trans (by rw [h.gate]), h2.trans (h.others j hj)⟩
  · have hlength : (r.putProg i none).ports.notices.length < 32 := by
      have := congrArg List.length (h.notices hroom)
      rw [List.length_append] at this
      exact this ▸ hroom
    have htold : e.ports.notices = r.ports.notices ++
        [⟨.programmeEnd, .line, i.val + 1, c, r.stepIndex i p.which p.position⟩] := by
      rw [he, State.endProgramme_eq hp, State.notify_notices _ _ hlength]
      rfl
    exact hrel.notices.trans (htold.trans (by rw [h.notices hroom]))

/-! ## The beginning of a step (R81) -/

/-- A range of steps on the line. -/
theorem State.stepIndex_of_range {s : State} {i : LineIx} {w : Which} {first count : Nat}
    (h : (s.tables.lines.get i).range w = ⟨some first, some count⟩) (n : Nat) :
    s.stepIndex i w n = first + n := by
  simp only [State.stepIndex, h, Range.steps]

/-- The state at the start of a step, before its rate is submitted (R81). -/
def State.stepSet (s : State) (i : LineIx) (w : Which) (first position : Nat) : State :=
  s.putProg i (some (Prog.atStart w position (s.stepAt (first + position))))

/-- In which mode a programme's request passes the first test (R58). -/
def State.programmeMode (s : State) (w : Which) : Bool :=
  s.modeNow == .fallback || (s.modeNow == .supervised && w.isShock)

theorem LineState.holds_iff (x : LineState) : x.holds = true ↔ x = .inhibited ∨ x = .resuming := by
  cases x <;> simp [LineState.holds]

/-- The step begins on a line that waits: it keeps the request (R57, R58 HELD). -/
theorem State.beginStep_held {r : State} {i : LineIx} {w : Which} {first count position : Nat}
    (hrange : (r.tables.lines.get i).range w = ⟨some first, some count⟩)
    (ht : r.lineTest i (r.stepAt (first + position)).rate (r.programmeMode w) = none)
    (hw : (r.gate.get i).state.holds = true) :
    r.beginStep i w position = ((r.stepSet i w first position).putLine i { r.gate.get i with
      requested := (r.stepAt (first + position)).rate, source := .programme }, .held) := by
  have hsubmit : (r.stepSet i w first position).submit i w (r.stepAt (first + position)).rate =
      ((r.stepSet i w first position).putLine i { r.gate.get i with
        requested := (r.stepAt (first + position)).rate, source := .programme }, .held) := by
    have ht' : (r.stepSet i w first position).lineTest i (r.stepAt (first + position)).rate
        ((r.stepSet i w first position).modeNow == .fallback ||
          ((r.stepSet i w first position).modeNow == .supervised && w.isShock)) = none := ht
    have hw' : ((r.stepSet i w first position).gate.get i).state.holds = true := hw
    simp only [State.submit, ht', hw', if_true]
    rfl
  unfold State.beginStep
  rw [State.stepIndex_of_range hrange]
  dsimp only
  rw [← State.stepSet, hsubmit]

/-- The step begins on a line that acts: it takes the rate, with CLAMPED where its terms give less (R58, R81). -/
theorem State.beginStep_acts {r : State} {i : LineIx} {w : Which} {first count position : Nat}
    (hrange : (r.tables.lines.get i).range w = ⟨some first, some count⟩)
    (ht : r.lineTest i (r.stepAt (first + position)).rate (r.programmeMode w) = none)
    (hw : (r.gate.get i).state.holds = false) :
    let t := (r.stepSet i w first position).act .programme i (r.stepAt (first + position)).rate .programme
    r.beginStep i w position =
      if (t.gate.get i).admitted = (r.stepAt (first + position)).rate then (t, .pass)
      else (t.notify ⟨.clamped, .line, i.val + 1, (t.gate.get i).binding.cause, (t.gate.get i).admitted⟩,
        .clamp (t.gate.get i).binding (t.gate.get i).admitted) := by
  dsimp only
  set t := (r.stepSet i w first position).act .programme i (r.stepAt (first + position)).rate .programme with htdef
  have hsubmit : (r.stepSet i w first position).submit i w (r.stepAt (first + position)).rate =
      (t, if (t.gate.get i).admitted = (r.stepAt (first + position)).rate then .pass
        else .clamp (t.gate.get i).binding (t.gate.get i).admitted) := by
    have ht' : (r.stepSet i w first position).lineTest i (r.stepAt (first + position)).rate
        ((r.stepSet i w first position).modeNow == .fallback ||
          ((r.stepSet i w first position).modeNow == .supervised && w.isShock)) = none := ht
    have hw' : ((r.stepSet i w first position).gate.get i).state.holds = false := hw
    simp only [State.submit, ht', hw', Bool.false_eq_true, if_false]
    rfl
  unfold State.beginStep
  rw [State.stepIndex_of_range hrange]
  dsimp only
  rw [← State.stepSet, hsubmit]
  by_cases hadmitted : (t.gate.get i).admitted = (r.stepAt (first + position)).rate
  · rw [if_pos hadmitted, if_pos hadmitted]
  · rw [if_neg hadmitted, if_neg hadmitted]

/-- A refused step leaves its programme set, with the cause returned (R58). -/
theorem State.beginStep_refused {r : State} {i : LineIx} {w : Which} {first count position : Nat} {c : Cause}
    (hrange : (r.tables.lines.get i).range w = ⟨some first, some count⟩)
    (ht : r.lineTest i (r.stepAt (first + position)).rate (r.programmeMode w) = some c) :
    r.beginStep i w position = (r.stepSet i w first position, .refuse c) := by
  have hsubmit : (r.stepSet i w first position).submit i w (r.stepAt (first + position)).rate =
      (r.stepSet i w first position, .refuse c) := by
    have ht' : (r.stepSet i w first position).lineTest i (r.stepAt (first + position)).rate
        ((r.stepSet i w first position).modeNow == .fallback ||
          ((r.stepSet i w first position).modeNow == .supervised && w.isShock)) = some c := ht
    simp only [State.submit, ht']
  unfold State.beginStep
  rw [State.stepIndex_of_range hrange]
  dsimp only
  rw [← State.stepSet, hsubmit]

section
variable {s r : State} {i : LineIx} {before : List Notice} (h : Readied s r i before)
  {w : Which} {first count position : Nat}
include h

theorem Readied.stepAt (n : Nat) : r.stepAt n = s.stepAt n := by simp only [State.stepAt, h.tables]

theorem Readied.programmeMode : r.programmeMode w = s.programmeMode w := by
  simp only [State.programmeMode, h.modeNow]

/-- The step set on the line. -/
theorem Readied.stepSet : Readied s (r.stepSet i w first position) i before := h.putProg _

/-- The programme of a step that has just begun, marked by the line's state: it is paused where the line does not
count its time (R82). -/
theorem Readied.stepSet_marked (hrange : (s.tables.lines.get i).range w = ⟨some first, some count⟩) (l : Line) :
    ((r.stepSet i w first position).runner.progs.get i).map ((r.stepSet i w first position).markPaused i l) =
      some ⟨w, position, (s.stepAt (first + position)).duration * 60,
        if (s.stepAt (first + position)).kind = .batch then some ⟨0, 0⟩ else none,
        !(l.state.counts (s.stepAt (first + position)).rate)⟩ := by
  have hprog : (r.stepSet i w first position).runner.progs.get i =
      some (Prog.atStart w position (s.stepAt (first + position))) := by
    rw [← h.stepAt]
    exact Table.get_set_self _ _ _
  have hrange' : ((r.stepSet i w first position).tables.lines.get i).range w = ⟨some first, some count⟩ := by
    rw [h.stepSet.tables]; exact hrange
  have hstep : (r.stepSet i w first position).stepOf i (Prog.atStart w position (s.stepAt (first + position))) =
      s.stepAt (first + position) :=
    (congrArg _ (State.stepIndex_of_range hrange' position)).trans (h.stepSet.stepAt _)
  rw [hprog, Option.map_some, State.markPaused, hstep]
  rfl

/-- The step that begins on a line that waits. -/
theorem Readied.begins_held (hrange : (s.tables.lines.get i).range w = ⟨some first, some count⟩)
    (ht : s.lineTest i (s.stepAt (first + position)).rate (s.programmeMode w) = none)
    (hw : (s.gate.get i).state.holds = true) :
    StepBegins s ((r.stepSet i w first position).putLine i { r.gate.get i with
      requested := (r.stepAt (first + position)).rate, source := .programme }) i w first position before := by
  have hwaits := ((s.gate.get i).state.holds_iff).1 hw
  have hcounts : (s.gate.get i).state.counts (s.stepAt (first + position)).rate = false := by
    rcases hwaits with e | e <;> rw [e] <;> rfl
  set t := (r.stepSet i w first position).putLine i { r.gate.get i with
    requested := (r.stepAt (first + position)).rate, source := .programme } with htdef
  have hline : t.gate.get i = { s.gate.get i with
      requested := (s.stepAt (first + position)).rate, source := .programme } := by
    rw [htdef, State.putLine_get, h.gate, h.stepAt]
  refine ⟨fun _ => ?_, fun c hc => absurd (ht.symm.trans hc) nofun⟩
  rw [hline]
  refine ⟨?_, rfl, rfl, rfl, fun _ => ⟨rfl, rfl⟩, fun hn => absurd hwaits hn,
    fun _ => ⟨offersNone_of_ports h.segments, rfl⟩, fun hn => absurd rfl hn, fun j hj => ?_,
    fun hroom => ⟨fun _ => h.notices hroom, fun hn => absurd hwaits hn⟩⟩
  · rw [htdef, State.putLine_prog, h.stepSet_marked hrange, h.gate]
    simp only [hcounts, Bool.not_false, hwaits, decide_true]
  · obtain ⟨h1, -, h2⟩ := ((r.stepSet i w first position).putLine_onlyLine i _).others j hj
    exact ⟨h1.trans (by rw [h.stepSet.gate]), h2.trans (h.stepSet.others j hj)⟩

/-- What the acceptance of a step's rate leaves of a line that acts on it. -/
theorem Readied.accepted (hrange : (s.tables.lines.get i).range w = ⟨some first, some count⟩)
    (ht : s.lineTest i (s.stepAt (first + position)).rate (s.programmeMode w) = none) :
    let v := (s.stepAt (first + position)).rate
    let t := (r.stepSet i w first position).act .programme i v .programme
    (t.gate.get i).state = (if v = 0 then .stopped else .dosing) ∧ (t.gate.get i).requested = v ∧
      (t.gate.get i).source = .programme ∧ (t.gate.get i).causes = (s.gate.get i).causes ∧
      (t.gate.get i).admitted = (if v = 0 ∨ (s.gate.get i).causes.any = true then 0 else rateFor s i v) ∧
      ((t.gate.get i).admitted = (s.gate.get i).admitted → OffersNone s t ∧
        (t.gate.get i).confirmation = (s.gate.get i).confirmation) ∧
      ((t.gate.get i).admitted ≠ (s.gate.get i).admitted →
        OffersOnly s t (s.lineEntry i) (t.gate.get i).admitted ∧
        (t.gate.get i).confirmation = .awaiting (some (s.tables.lines.get i).confirmLimit)) ∧
      t.runner.progs.get i = some ⟨w, position, (s.stepAt (first + position)).duration * 60,
        if (s.stepAt (first + position)).kind = .batch then some ⟨0, 0⟩ else none, false⟩ ∧
      (∀ j, j ≠ i → t.gate.get j = s.gate.get j ∧ t.runner.progs.get j = s.runner.progs.get j) ∧
      t.ports.notices = r.ports.notices := by
  dsimp only
  set v := (s.stepAt (first + position)).rate with hv
  have hset := h.stepSet (w := w) (first := first) (position := position)
  set q := r.stepSet i w first position with hq
  have hx (hne : v ≠ 0) : q.otherDosing i = false := by
    simp only [State.otherDosing, hset.gate, hset.tables]
    exact State.lineTest_free ht hne
  have hr := q.act_recomputed .programme i v .programme hx
  have hp : (q.withRequest i v .programme).gate.get i = _ := q.withRequest_line i v .programme
  have hrate := q.withRequest_rate i v .programme
  rw [hset.gate, hset.rate] at hrate
  rw [hset.gate] at hp
  refine ⟨by rw [hr.fields, hp], by rw [hr.fields, hp], by rw [hr.fields, hp], by rw [hr.fields, hp],
    hr.admitted.trans hrate, fun hsame => ?_, fun hne => ?_, ?_, fun j hj => ?_, hr.notices (.inl nofun)⟩
  · have hsame' : ((q.withRequest i v .programme).admittedRate i).1 =
        ((q.withRequest i v .programme).gate.get i).admitted := by rw [← hr.admitted, hp]; exact hsame
    obtain ⟨hline, hports⟩ := hr.same hsame'
    refine ⟨hset.offersNone (offersNone_of_ports ?_), by rw [hline, hp]⟩
    rw [hports]
    rfl
  · have hchanged : ((q.withRequest i v .programme).admittedRate i).1 ≠
        ((q.withRequest i v .programme).gate.get i).admitted := by rw [← hr.admitted, hp]; exact hne
    have hsent := hr.offers hchanged nofun
    rw [← hr.admitted] at hsent
    refine ⟨hset.offersOnly (offersOnly_of_ports hsent rfl rfl), ?_⟩
    rw [hr.changed hchanged]
    exact congrArg (fun T : Tables => Confirmation.awaiting (some (T.lines.get i).confirmLimit)) hset.tables
  · have htwice : (q.withRequest i v .programme).markPaused i ((q.withRequest i v .programme).gate.get i) ∘
        q.markPaused i { q.gate.get i with
          requested := v, source := .programme, state := if v = 0 then .stopped else .dosing } =
        q.markPaused i { q.gate.get i with
          requested := v, source := .programme, state := if v = 0 then .stopped else .dosing } := by
      funext p
      exact State.markPaused_twice rfl i (by rw [hp]) p
    have hcounts : LineState.counts (if v = 0 then .stopped else .dosing) v = true := by
      by_cases hz : v = 0
      · rw [if_pos hz, hz]; rfl
      · rw [if_neg hz]; rfl
    rw [hr.prog, State.withRequest, State.putLine_prog, Option.map_map]
    rw [State.withRequest] at htwice
    rw [htwice, hq, h.stepSet_marked hrange, ← hv]
    simp only [hcounts, Bool.not_true]
  · obtain ⟨h1, -, h2⟩ := ((q.putLine_onlyLine i _).trans hr.line).others j hj
    exact ⟨h1.trans (by rw [hset.gate]), h2.trans (hset.others j hj)⟩

/-- The step that begins on a line that acts on its rate, with CLAMPED where its terms give less. -/
theorem Readied.begins_acts (hrange : (s.tables.lines.get i).range w = ⟨some first, some count⟩)
    (ht : s.lineTest i (s.stepAt (first + position)).rate (s.programmeMode w) = none)
    (hw : (s.gate.get i).state.holds = false) :
    StepBegins s (r.beginStep i w position).1 i w first position before ∧
      ∀ c, (r.beginStep i w position).2 ≠ .refuse c := by
  have hrange' : (r.tables.lines.get i).range w = ⟨some first, some count⟩ := by rw [h.tables]; exact hrange
  have ht' : r.lineTest i (r.stepAt (first + position)).rate (r.programmeMode w) = none := by
    rw [h.lineTest, h.stepAt, h.programmeMode, ht]
  have hwaits : ¬ ((s.gate.get i).state = .inhibited ∨ (s.gate.get i).state = .resuming) := fun e => by
    rw [((s.gate.get i).state.holds_iff).2 e] at hw; contradiction
  have heq := State.beginStep_acts hrange' ht' (by rw [h.gate]; exact hw)
  have haccepted := h.accepted hrange ht
  dsimp only at heq haccepted
  rw [h.stepAt] at heq
  set t := (r.stepSet i w first position).act .programme i (s.stepAt (first + position)).rate .programme
  obtain ⟨hstate, hrequested, hsource, hcauses, hadmitted, hsame, hchanged, hprog, hothers, hnotices⟩ := haccepted
  rw [heq]
  by_cases hpass : (t.gate.get i).admitted = (s.stepAt (first + position)).rate
  · rw [if_pos hpass]
    refine ⟨⟨fun _ => ⟨?_, hrequested, hsource, hcauses, fun e => absurd e hwaits,
      fun _ => ⟨hstate, hadmitted⟩, hsame, hchanged, hothers,
      fun hroom => ⟨fun _ => hnotices.trans (h.notices hroom), fun _ hne => absurd hpass hne⟩⟩,
      fun c hc => absurd (ht.symm.trans hc) nofun⟩, fun c => nofun⟩
    rw [hprog, decide_eq_false hwaits]
  · rw [if_neg hpass]
    have hquiet := t.notify_quiet ⟨.clamped, .line, i.val + 1, (t.gate.get i).binding.cause, (t.gate.get i).admitted⟩
    refine ⟨⟨fun _ => ?_, fun c hc => absurd (ht.symm.trans hc) nofun⟩, fun c => nofun⟩
    rw [hquiet.gate]
    refine ⟨by simp [hprog, hwaits], hrequested, hsource, hcauses, fun e => absurd e hwaits,
      fun _ => ⟨hstate, hadmitted⟩, fun e => ?_, fun e => ?_, fun j hj => ?_, fun hroom => ⟨fun e => ?_, fun _ _ => ?_⟩⟩
    · obtain ⟨hown, hconfirm⟩ := hsame e
      exact ⟨fun g => by simpa using hown g, hconfirm⟩
    · obtain ⟨hown, hconfirm⟩ := hchanged e
      exact ⟨offersOnly_later hown (by simp), hconfirm⟩
    · simpa using hothers j hj
    · exact absurd (e.resolve_left hwaits) hpass
    · have hsent := h.notices hroom
      have hlength : t.ports.notices.length < 32 := by
        rw [hnotices, hsent, List.length_append]
        exact hroom
      rw [State.notify_notices _ _ hlength, hnotices, hsent]

/-- The step that begins on a line which passes the tests. -/
theorem Readied.begins (hrange : (s.tables.lines.get i).range w = ⟨some first, some count⟩)
    (ht : s.lineTest i (s.stepAt (first + position)).rate (s.programmeMode w) = none) :
    StepBegins s (r.beginStep i w position).1 i w first position before ∧
      ∀ c, (r.beginStep i w position).2 ≠ .refuse c := by
  cases hw : (s.gate.get i).state.holds
  · exact h.begins_acts hrange ht hw
  · have hrange' : (r.tables.lines.get i).range w = ⟨some first, some count⟩ := by rw [h.tables]; exact hrange
    have ht' : r.lineTest i (r.stepAt (first + position)).rate (r.programmeMode w) = none := by
      rw [h.lineTest, h.stepAt, h.programmeMode, ht]
    rw [State.beginStep_held hrange' ht' (by rw [h.gate]; exact hw)]
    exact ⟨h.begins_held hrange ht hw, fun c => nofun⟩

/-- A step that is started within a programme: a refusal ends the programme (R81, R85). -/
theorem Readied.startStep (hrange : (s.tables.lines.get i).range w = ⟨some first, some count⟩) :
    StepBegins s (r.startStep i w position) i w first position before := by
  have hrange' : (r.tables.lines.get i).range w = ⟨some first, some count⟩ := by rw [h.tables]; exact hrange
  cases ht : s.lineTest i (s.stepAt (first + position)).rate (s.programmeMode w) with
  | none =>
    obtain ⟨hbegins, hnot⟩ := h.begins hrange ht
    have heq : r.startStep i w position = (r.beginStep i w position).1 := by
      unfold State.startStep
      dsimp only
      split
      · rename_i c hc
        exact absurd hc (hnot c)
      all_goals rfl
    rw [heq]
    exact hbegins
  | some c =>
    have ht' : r.lineTest i (r.stepAt (first + position)).rate (r.programmeMode w) = some c := by
      rw [h.lineTest, h.stepAt, h.programmeMode, ht]
    have heq : r.startStep i w position = (r.stepSet i w first position).endAndRelease i c := by
      unfold State.startStep
      rw [State.beginStep_refused hrange' ht']
    have hprog : (r.stepSet i w first position).runner.progs.get i =
        some (Prog.atStart w position (r.stepAt (first + position))) := Table.get_set_self _ _ _
    have hends := h.stepSet.endAndRelease hprog c
    have hindex : (r.stepSet i w first position).stepIndex i
        (Prog.atStart w position (r.stepAt (first + position))).which
        (Prog.atStart w position (r.stepAt (first + position))).position = first + position :=
      State.stepIndex_of_range hrange' position
    rw [hindex] at hends
    rw [heq]
    refine ⟨fun hn => absurd (ht.symm.trans hn) nofun, fun d hd => ?_⟩
    obtain rfl : c = d := Option.some.inj (ht.symm.trans hd)
    exact hends

/-- The step in progress ends (R84). -/
theorem Readied.stepEnded {p q : Prog} (hrange : (s.tables.lines.get i).range p.which = ⟨some first, some count⟩)
    (hq : r.runner.progs.get i = some q) (hwhich : q.which = p.which) (hposition : q.position = p.position) :
    StepEnds s (r.stepEnded i q) i p first count before := by
  have hrange' : (r.tables.lines.get i).range q.which = ⟨some first, some count⟩ := by
    rw [h.tables, hwhich]; exact hrange
  have hindex : r.stepIndex i q.which q.position = first + p.position := by
    rw [State.stepIndex_of_range hrange', hposition]
  have hstep : r.stepOf i q = s.stepOf i p := by
    have hs : s.stepOf i p = s.stepAt (first + p.position) :=
      congrArg s.stepAt (State.stepIndex_of_range hrange p.position)
    rw [hs, ← h.stepAt]
    exact congrArg r.stepAt hindex
  have hnext : r.stepEnded i q =
      if p.position + 1 < count then r.startStep i p.which (p.position + 1)
      else if p.which.isShock = false ∧ (s.stepOf i p).loop = true then r.startStep i p.which 0
      else r.endAndRelease i .completed := by
    unfold State.stepEnded
    simp only [hrange', Range.steps, hstep]
    rw [hwhich, hposition]
  rw [hnext]
  refine ⟨fun hmore => ?_, fun hlast hshock hloop => ?_, fun hlast hend => ?_⟩
  · rw [if_pos hmore]
    exact h.startStep hrange
  · rw [if_neg (by omega), if_pos ⟨hshock, hloop⟩]
    exact h.startStep hrange
  · rw [if_neg (by omega), if_neg fun e => hend.elim (fun x => by rw [e.1] at x; contradiction)
      fun x => by rw [e.2] at x; contradiction]
    have hends := h.endAndRelease hq .completed
    rwa [hindex] at hends

end

/-! ## The ends of a step (R83, R84) -/

/-- A second added to the totaliser leaves the step, the line and the notices (R91). -/
theorem State.addTotal_readied (s : State) (i : LineIx) : Readied s (s.addTotal i) i [] :=
  ⟨rfl, rfl, rfl, rfl, fun _ => rfl, fun _ _ => rfl, fun _ => by rw [List.append_nil]; rfl⟩

theorem StepRec.reached_of_volume {r : StepRec} {v : Nat} (h : r.volume = some v) (b : Batch) :
    r.reached b = decide (v ≤ b.ml) := by
  simp only [StepRec.reached, h]

/-- The second's addition to the batch of a BATCH step (R83, R91). -/
theorem execTotaliserAddition_adds {s : State} {i : LineIx} {p : Prog} {b : Batch} {v : Nat}
    (hp : s.runner.progs.get i = some p) (hb : p.batch = some b) (hkind : (s.stepOf i p).kind = .batch)
    (hv : (s.stepOf i p).volume = some v) (hpermit : s.pins.permits.get i = true) :
    let added : Prog := { p with batch := some (b.add (s.gate.get i).confirmed) }
    let t := (s.addTotal i).putProg i (some added)
    exec (.totaliserAddition i) s =
      .next (if v ≤ (b.add (s.gate.get i).confirmed).ml then t.stepEnded i added else t) := by
  intro added t
  have hprog : (s.addTotal i).runner.progs.get i = some p := hp
  have hreached : ((s.addTotal i).stepOf i added).reached (b.add (s.gate.get i).confirmed) =
      decide (v ≤ (b.add (s.gate.get i).confirmed).ml) := StepRec.reached_of_volume hv _
  have hends : (((s.addTotal i).stepOf i added).kind = .batch ∧
      ((s.addTotal i).stepOf i added).reached (b.add (s.gate.get i).confirmed) = true) ↔
      v ≤ (b.add (s.gate.get i).confirmed).ml := by
    rw [hreached, decide_eq_true_eq]
    exact and_iff_right hkind
  have hadd : (s.addTotal i).addBatch i =
      if ((s.addTotal i).stepOf i added).kind = .batch ∧
          ((s.addTotal i).stepOf i added).reached (b.add (s.gate.get i).confirmed) = true
        then t.stepEnded i added else t := by
    simp only [State.addBatch, hprog, hb]
    rfl
  simp only [exec, execTotaliserAddition, hpermit, if_true, hadd, hends]

/-- Settles O40: a RATE step, a BATCH step at its cap, and one whose volume is reached; a step with time left, and a row
with no programme. -/
theorem programmeStepEnds : Obligations.ProgrammeStepEnds := by
  refine ⟨?_, ?_, ?_, ?_, ?_⟩
  · intro s i p first count hp hrange hz hkind
    refine ⟨s.stepEnded i p, ?_, (Readied.refl s i).stepEnded hrange hp rfl rfl⟩
    simp only [exec, execProgrammeStepEnd, hp, hz, hkind, true_and, if_true]
  · intro s i p b v first count hp hrange hb hz hkind hv hless
    have hreached : (s.stepOf i p).reached b = false := by
      rw [StepRec.reached_of_volume hv, decide_eq_false (Nat.not_le.2 hless)]
    have hready := Readied.notify s i ⟨.batchShort, .line, i.val + 1, .cap, b.ml⟩
    refine ⟨(s.notify ⟨.batchShort, .line, i.val + 1, .cap, b.ml⟩).stepEnded i p, ?_,
      hready.stepEnded hrange (by simpa using hp) rfl rfl⟩
    simp only [exec, execBatchCap, hp, hb, hz, hkind, hreached, true_and, if_true]
  · intro s i p b v first count hp hrange hb hkind hv hpermit units
    have hexec := execTotaliserAddition_adds hp hb hkind hv hpermit
    dsimp only at hexec
    refine ⟨fun hfull => ?_, fun hless => ?_⟩
    · have hexec := hexec.trans (congrArg Host.Outcome.next (if_pos hfull))
      exact ⟨_, hexec, ((s.addTotal_readied i).putProg _).stepEnded hrange (Table.get_set_self _ _ _) rfl rfl⟩
    · have hexec := hexec.trans (congrArg Host.Outcome.next (if_neg (Nat.not_le.2 hless)))
      exact ⟨_, hexec, Table.get_set_self _ _ _, rfl, rfl⟩
  · intro s i p hp hne
    refine ⟨?_, ?_⟩
    · simp only [exec, execProgrammeStepEnd, hp, hne, false_and, if_false]
    · simp only [exec, execBatchCap, hp, hne, false_and, if_false]
      split <;> rfl
  · intro s i hp
    refine ⟨?_, ?_⟩
    · simp only [exec, execProgrammeStepEnd, hp]
    · simp only [exec, execBatchCap, hp]

/-! ## START_PROGRAMME and STOP_PROGRAMME (R89, R90) -/

section
variable {s : State} {i : LineIx} {w : Which} {first count : Nat}
  (hrange : (s.tables.lines.get i).range w = ⟨some first, some count⟩) (hshock : s.shockActive i = false)
include hrange hshock

/-- The accepted START_PROGRAMME: the first step begins (R89). -/
theorem State.startProgramme_begins (ht : s.lineTest i (s.stepAt first).rate (s.programmeMode w) = none) :
    s.startProgramme i w = (s.beginStep i w 0).1.replyData (s.beginStep i w 0).2.bytes ∧
      StepBegins s (s.beginStep i w 0).1 i w first 0 [] := by
  obtain ⟨hbegins, hnot⟩ := (Readied.refl s i).begins (position := 0) hrange ht
  refine ⟨?_, hbegins⟩
  unfold State.startProgramme
  rw [if_neg (by simp [hrange, Range.steps]), if_neg (by simp [hshock])]
  dsimp only
  split
  · rename_i c hc
    exact absurd hc (hnot c)
  all_goals rfl

/-- The refused START_PROGRAMME leaves the part unchanged (R89). -/
theorem State.startProgramme_refused {c : Cause}
    (ht : s.lineTest i (s.stepAt first).rate (s.programmeMode w) = some c) :
    s.startProgramme i w = ⟨s, some (.denied, bytesOf 1 c.code)⟩ := by
  unfold State.startProgramme
  rw [if_neg (by simp [hrange, Range.steps]), if_neg (by simp [hshock]),
    State.beginStep_refused (position := 0) hrange ht]

end

/-- Settles O41: the start that is accepted and refused, the stop, and the stop with no programme. -/
theorem shockProgrammeStartsAndStops : Obligations.ShockProgrammeStartsAndStops := by
  intro s tag x i hready hm hx
  have hix : ixFrom 1 12 x.toNat = some i := ixFrom_val i hx
  have hmode : (s.modeNow == .supervised) = true := by rw [hm]; rfl
  have hline : ixArg 1 12 [x] = some i := hix
  refine ⟨?_, fun p hp => ?_, fun hp => ?_⟩
  · intro choice w first count hchoice henabled hrange hshock r
    have hargs : s.programmeArgs [x, choice] = some (i, w) := by
      rcases hchoice with ⟨rfl, rfl⟩ | ⟨rfl, rfl⟩ <;> simp [State.programmeArgs, hix, henabled]
    have hstart : exec (.startProgramme tag [x, choice]) s =
        .next ((s.startProgramme i w).finish .startProgramme tag) := by
      simp only [exec, execStartProgramme]
      rw [State.manage_runs hready.1 hmode hready.2 hargs]
    have hpasses : s.programmeMode w = true := by
      rcases hchoice with ⟨-, rfl⟩ | ⟨-, rfl⟩ <;> simp [State.programmeMode, hm, Which.isShock]
    refine ⟨fun ht => ?_, fun c ht => ?_⟩
    · obtain ⟨heq, hbegins⟩ := State.startProgramme_begins hrange hshock (by rw [hpasses]; exact ht)
      have htest : s.lineTest i (s.stepAt (first + 0)).rate (s.programmeMode w) = none := by
        rw [hpasses]; exact ht
      obtain ⟨hprog, hrequested, hsource, -, -, -, -, -, hothers, -⟩ := hbegins.1 htest
      refine ⟨(s.beginStep i w 0).1, _, (s.beginStep i w 0).2.bytes, ?_, hprog, rfl, rfl, rfl, hrequested,
        hsource, hbegins, hothers⟩
      rw [hstart, heq]
      rfl
    · rw [hstart, State.startProgramme_refused hrange hshock (by rw [hpasses]; exact ht)]
      rfl
  · have hrel := (s.putProg i none).release_released i
    refine ⟨(s.putProg i none).release i, ?_, hrel.prog (Table.get_set_self _ _ _), hrel.notices, fun hs => ?_,
      hrel.other, hrel.pump, fun j hj => (hrel.line.others j hj).1⟩
    · simp only [exec, execStopProgramme]
      rw [State.manage_runs hready.1 hmode hready.2 hline, hp]
      rfl
    · obtain ⟨hrequested, hsource, -, -⟩ := hrel.mine hs
      exact ⟨hrequested, hsource⟩
  · simp only [exec, execStopProgramme]
    rw [State.manage_runs hready.1 hmode hready.2 hline, hp]
    rfl

end Sys2Proof.Machine
end

section
/-!
PROOFS. What the Reading Table, the Sequencer and the Arbiter do to the lines after the Dose Gate and the Runner have taken a
new mode or an input: they tell lines of LIMIT and BACKWASH, and touch nothing else of them (R65, R66). What a line
keeps through that.
-/

namespace Sys2Proof.Machine

open Sys2Proof.Safety Sys2Proof.Claims

/-! ## A line with nothing to ask for (R61) -/

theorem State.resumeExpired_onlyLine (s : State) (i : LineIx) : OnlyLine i s (s.resumeExpired i) := by
  unfold State.resumeExpired
  dsimp only
  split
  · exact s.excludeDrop_onlyLine i
  · split
    · exact s.putLine_onlyLine i _
    · exact (s.putLine_onlyLine i _).trans (State.recompute_onlyLine _ _ _)

/-- A change of a line's causes is an event on that line (R61). -/
theorem State.applyCauses_onlyLine (s : State) (i : LineIx) (new : Causes) :
    OnlyLine i s (s.applyCauses i new) := by
  unfold State.applyCauses
  extract_lets l cleared requested next resumes delay t u
  split
  · exact .refl i s
  have hu : OnlyLine i s u := by
    unfold u
    split
    · exact (s.putLine_onlyLine i _).trans (t.endProgramme_onlyLine i _)
    · exact s.putLine_onlyLine i _
  split
  · exact hu.trans (u.resumeExpired_onlyLine i)
  · exact hu.trans (u.recompute_onlyLine .event i)

/-- A request of 0 is admitted 0 (R53). -/
theorem State.admittedRate_zero (s : State) (i : LineIx) (h : (s.gate.get i).requested = 0) :
    (s.admittedRate i).1 = 0 := by
  by_cases hd : (s.gate.get i).state = .dosing ∧ (s.gate.get i).causes.any = false
  · rw [s.admittedRate_dosing i hd, State.leastTerm_rateFor, h]
    unfold rateFor
    dsimp only
    rw [Nat.zero_min]
    split <;> split <;> simp
  · rw [s.admittedRate_idle i hd]

theorem State.recompute_zero (s : State) (w : For) (i : LineIx) (h : (s.gate.get i).requested = 0) :
    Recomputed s (s.recompute w i) w i :=
  s.recompute_recomputed w i fun _ hp => by rw [s.admittedRate_zero i h] at hp; exact absurd hp (Nat.lt_irrefl 0)

/-- What a change of causes writes to a line that asks for nothing, or whose request it clears, before the rate (R61). -/
def Line.withdrawn (l : Line) (new : Causes) (resume : Nat) : Line :=
  { l with
    causes := new, state := l.nextState new 0, requested := 0, resume := resume
    source := if l.causes.latchedNew new then .none else l.source }

/-- From `s` to `u` line `i` has taken the causes `new` with no request, and no rate has been computed yet. -/
structure Withdrawn (s u : State) (i : LineIx) (new : Causes) : Prop where
  line : ∃ resume, u.gate.get i = (s.gate.get i).withdrawn new resume
  prog : s.runner.progs.get i = none → u.runner.progs.get i = none
  segments : u.ports.segments = s.ports.segments
  tables : u.tables = s.tables

/-- A line that asks for nothing, or whose request a latched cause clears, takes the causes and is recomputed (R61). -/
theorem State.applyCauses_unasked (s : State) (i : LineIx) (new : Causes)
    (hd : (s.gate.get i).state ≠ .disabled)
    (hr : (s.gate.get i).requested = 0 ∨ (s.gate.get i).causes.latchedNew new = true) :
    ∃ u, Withdrawn s u i new ∧ s.applyCauses i new = u.recompute .event i := by
  unfold State.applyCauses
  extract_lets l cleared requested next resumes delay t u
  rw [if_neg hd]
  have hzero : requested = 0 := by
    unfold requested
    split
    · rfl
    · rename_i hc
      exact hr.resolve_right hc
  have hnot : ¬ (resumes ∧ delay = 0) := by
    rintro ⟨⟨hinhibited, hnext⟩, -⟩
    unfold next Line.nextState at hnext
    rw [hinhibited, hzero] at hnext
    dsimp only at hnext
    split at hnext
    · contradiction
    · exact absurd hnext (by rw [if_pos rfl]; exact nofun)
  have hnext : next = l.nextState new 0 := congrArg (l.nextState new) hzero
  have hline : t.gate.get i = l.withdrawn new (t.gate.get i).resume := by
    unfold t
    rw [State.putLine_get, Line.withdrawn, ← hnext]
    simp only [hzero]
    rfl
  have ht : s.runner.progs.get i = none → t.runner.progs.get i = none := fun hn => by
    rw [State.putLine_prog, hn]
    rfl
  refine ⟨u, ?_, if_neg hnot⟩
  unfold u
  split
  · exact ⟨⟨_, by rw [(t.endProgramme_quiet i _).gate]; exact hline⟩, fun _ => t.endProgramme_prog i _,
      t.endProgramme_segments i _, (t.endProgramme_gate i _).tables⟩
  · exact ⟨⟨_, hline⟩, ht, rfl, rfl⟩

/-- It takes the causes with no rate. -/
theorem State.applyCauses_withdrawn (s : State) (i : LineIx) (new : Causes)
    (hd : (s.gate.get i).state ≠ .disabled)
    (hr : (s.gate.get i).requested = 0 ∨ (s.gate.get i).causes.latchedNew new = true) :
    ((s.applyCauses i new).gate.get i).causes = new ∧
      ((s.applyCauses i new).gate.get i).state = (s.gate.get i).nextState new 0 ∧
      ((s.applyCauses i new).gate.get i).requested = 0 ∧ ((s.applyCauses i new).gate.get i).admitted = 0 ∧
      ((s.applyCauses i new).gate.get i).source =
        (if (s.gate.get i).causes.latchedNew new then .none else (s.gate.get i).source) ∧
      ((s.applyCauses i new).gate.get i).fault = (s.gate.get i).fault ∧
      (s.runner.progs.get i = none → (s.applyCauses i new).runner.progs.get i = none) := by
  obtain ⟨u, ⟨⟨resume, hline⟩, hprog, -, -⟩, heq⟩ := s.applyCauses_unasked i new hd hr
  have hzero : (u.gate.get i).requested = 0 := by rw [hline]; rfl
  have h := u.recompute_zero .event i hzero
  rw [heq, h.fields, u.admittedRate_zero i hzero, hline]
  exact ⟨rfl, rfl, rfl, rfl, rfl, rfl, fun hn => by rw [h.prog, hprog hn]; rfl⟩

/-- A line at rest takes causes with nothing commanded, and its confirmation stands (R54, R61). -/
theorem State.applyCauses_resting (s : State) (i : LineIx) (new : Causes)
    (hd : (s.gate.get i).state ≠ .disabled) (hr : (s.gate.get i).requested = 0)
    (ha : (s.gate.get i).admitted = 0) :
    OffersNone s (s.applyCauses i new) ∧
      ((s.applyCauses i new).gate.get i).confirmation = (s.gate.get i).confirmation ∧
      ((s.applyCauses i new).gate.get i).confirmed = (s.gate.get i).confirmed ∧
      ((s.applyCauses i new).gate.get i).lastEcho = (s.gate.get i).lastEcho := by
  obtain ⟨u, ⟨⟨resume, hline⟩, -, hsegments, -⟩, heq⟩ := s.applyCauses_unasked i new hd (.inl hr)
  have hzero : (u.gate.get i).requested = 0 := by rw [hline]; rfl
  have hadmitted : (u.gate.get i).admitted = 0 := by rw [hline]; exact ha
  obtain ⟨hkept, hports⟩ := (u.recompute_zero .event i hzero).same
    ((u.admittedRate_zero i hzero).trans hadmitted.symm)
  rw [heq, hkept, hline]
  exact ⟨offersNone_of_ports ((congrArg Ports.segments hports).trans hsegments), rfl, rfl, rfl⟩

/-! ## Aside from the lines -/

/-- From `s` to `t` no line, permit, programme, table, mode or plant stop has changed, no notice is lost, and
PROGRAMME_END is not sent. -/
structure Aside (s t : State) : Prop where
  gate : t.gate = s.gate
  permits : t.pins.permits = s.pins.permits
  progs : t.runner.progs = s.runner.progs
  tables : t.tables = s.tables
  modeNow : t.modeNow = s.modeNow
  plantStop : t.pins.plantStop = s.pins.plantStop
  raised : ∀ n, Raised s n → Raised t n
  ends : ∀ n : Notice, n.kind = .programmeEnd → n ∈ t.ports.notices → n ∈ s.ports.notices

/-- Neither the ports nor the conditions have changed. -/
theorem Aside.of_fields {s t : State} (hgate : t.gate = s.gate := by rfl)
    (hpermits : t.pins.permits = s.pins.permits := by rfl)
    (hprogs : t.runner.progs = s.runner.progs := by rfl) (htables : t.tables = s.tables := by rfl)
    (hmode : t.modeNow = s.modeNow := by rfl) (hstop : t.pins.plantStop = s.pins.plantStop := by rfl)
    (hports : t.ports = s.ports := by rfl) (hmgmt : t.mgmt = s.mgmt := by rfl) : Aside s t :=
  ⟨hgate, hpermits, hprogs, htables, hmode, hstop, fun n hn => by rwa [Raised, hports, hmgmt],
    fun n _ hn => by rwa [hports] at hn⟩

theorem Aside.trans {s t u : State} (h : Aside s t) (k : Aside t u) : Aside s u where
  gate := k.gate.trans h.gate
  permits := k.permits.trans h.permits
  progs := k.progs.trans h.progs
  tables := k.tables.trans h.tables
  modeNow := k.modeNow.trans h.modeNow
  plantStop := k.plantStop.trans h.plantStop
  raised n hn := k.raised n (h.raised n hn)
  ends n hk hn := h.ends n hk (k.ends n hk hn)

/-- What a notice adds to the queue (R17). -/
theorem State.mem_notify {s : State} {m n : Notice} (h : n ∈ (s.notify m).ports.notices) :
    n ∈ s.ports.notices ∨ n = m := by
  unfold State.notify at h
  split at h
  · exact (List.mem_append.1 h).imp id List.mem_singleton.1
  · exact .inl h

theorem State.notify_aside (s : State) (n : Notice) (h : n.kind ≠ .programmeEnd) : Aside s (s.notify n) where
  gate := by simp
  permits := by simp
  progs := by simp
  tables := by simp
  modeNow := (s.notify_gate n).modeNow
  plantStop := by simp
  raised _ hm := State.notify_keeps_raised hm n
  ends m hm hin := (State.mem_notify hin).elim id fun e => absurd (e ▸ hm) h

theorem State.originate_mgmt (s : State) (k : Option (Fin 48)) (v : Nat) : (s.originate k v).mgmt = s.mgmt := by
  unfold State.originate
  split
  · rfl
  · dsimp only
    split <;> rfl

theorem State.originate_aside (s : State) (k : Option (Fin 48)) (v : Nat) : Aside s (s.originate k v) := by
  have hquiet := s.originate_quiet k v
  exact {
    gate := hquiet.gate
    permits := hquiet.permits
    progs := by simp
    tables := hquiet.frame.tables
    modeNow := hquiet.frame.modeNow
    plantStop := hquiet.frame.plantStop
    raised := fun n hn => by rwa [Raised, State.originate_notices, State.originate_mgmt]
    ends := fun n _ hn => by rwa [State.originate_notices] at hn }

/-! ## Lines told of LIMIT and BACKWASH -/

/-- From `s` to `t` lines have been told of LIMIT and BACKWASH, and no more has come to any of them. -/
inductive Tells (s : State) : State → Prop where
  | refl : Tells s s
  | aside {t u : State} (h : Tells s t) (k : Aside t u) : Tells s u
  | told {t : State} (h : Tells s t) (i : LineIx) (limit backwash : Bool) :
    Tells s (t.applyCauses i { (t.gate.get i).causes with limit := limit, backwash := backwash })

theorem Tells.trans {s t u : State} (h : Tells s t) (k : Tells t u) : Tells s u := by
  induction k with
  | refl => exact h
  | aside _ k ih => exact ih.aside k
  | told _ i limit backwash ih => exact ih.told i limit backwash

theorem Aside.tells {s t : State} (h : Aside s t) : Tells s t := Tells.refl.aside h

/-- What stands through changes aside from the lines, and through a line that is told, stands through the whole. -/
theorem Tells.keeps {P : State → Prop} {s t : State} (h : Tells s t)
    (aside : ∀ {t u : State}, Aside t u → P t → P u)
    (told : ∀ {t : State} (i : LineIx) (limit backwash : Bool), P t →
      P (t.applyCauses i { (t.gate.get i).causes with limit := limit, backwash := backwash }))
    (hs : P s) : P t := by
  induction h with
  | refl => exact hs
  | aside _ k ih => exact aside k ih
  | told _ i limit backwash ih => exact told i limit backwash ih

theorem Tells.foldl {α : Type} {f : State → α → State} (h : ∀ s a, Tells s (f s a)) (l : List α) (s : State) :
    Tells s (l.foldl f s) := by
  induction l generalizing s with
  | nil => exact .refl
  | cons a l ih => exact (h s a).trans (ih _)

theorem State.gateBackwash_tells (s : State) (c : CircuitIx) : Tells s (s.gateBackwash c) := by
  refine Tells.foldl (fun t i => ?_) _ s
  split
  · exact Tells.refl.told i (t.gate.get i).causes.limit (t.backwashCause i)
  · exact .refl

theorem State.gateReading_tells (s : State) (k : SlotIx) : Tells s (s.gateReading k) := by
  refine Tells.foldl (fun t i => ?_) _ s
  split
  · exact Tells.refl.told i (t.judgeLimit i (t.gate.get i).causes.limit) (t.gate.get i).causes.backwash
  · exact .refl

theorem State.unrinsedNotice_tells (s : State) (f : FilterIx) (c : Cause) (g : Stage) :
    Tells s (s.unrinsedNotice f c g) :=
  (Aside.of_fields (t := s.updFilter f fun q => { q with unrinsed := true })).tells.aside
    (State.notify_aside _ _ nofun)

theorem State.beginMove_tells (s : State) (f : FilterIx) (b : Backwash) (o : MoveObject) (v : Nat) :
    Tells s (s.beginMove f b o v) :=
  ((Aside.of_fields (t := s.updFilter f _)).tells.aside (State.originate_aside _ _ _)).trans
    (State.gateBackwash_tells _ _)

theorem State.enterStage_tells (s : State) (f : FilterIx) (b : Backwash) (g : Stage) :
    Tells s (s.enterStage f b g) := by
  unfold State.enterStage
  extract_lets b' t
  have ht : Tells s t := by
    unfold t
    split
    · exact s.unrinsedNotice_tells _ _ _
    · exact .refl
  exact ht.trans (t.beginMove_tells _ _ _ _)

theorem State.abort_tells (s : State) (f : FilterIx) (c : AbortCause) : Tells s (s.abort f c) := by
  unfold State.abort
  split
  · exact .refl
  extract_lets u t
  split
  · exact .refl
  have ht : Tells s t := by
    unfold t
    split
    · exact (Aside.of_fields (t := u)).tells.aside (u.originate_aside _ _)
    · exact .refl
  split
  · exact ht.trans (t.enterStage_tells _ _ _)
  split
  · exact ht.trans (t.enterStage_tells _ _ _)
  · exact ht

theorem State.judgeTanks_tells (s : State) (f : FilterIx) : Tells s (s.judgeTanks f) := by
  unfold State.judgeTanks
  split
  · split
    · exact s.abort_tells _ _
    · exact .refl
  · exact .refl

theorem State.rejudgeDp_aside (s : State) (f : FilterIx) : Aside s (s.rejudgeDp f) := .of_fields

theorem State.cancelCheck_tells (s : State) (f : FilterIx) : Tells s (s.cancelCheck f) := by
  unfold State.cancelCheck
  split
  · exact (Aside.of_fields (t := s.updArb f fun a => { a with check := none })).tells.aside
      (State.rejudgeDp_aside _ f)
  · exact .refl

theorem State.grant_tells (s : State) (f : FilterIx) : Tells s (s.grant f) := by
  unfold State.grant
  extract_lets a b t u v
  exact (((Aside.of_fields (t := t)).tells.trans (t.cancelCheck_tells f)).trans
    (u.beginMove_tells _ _ _ _)).aside (v.notify_aside _ nofun)

theorem State.arbitrate_tells (s : State) : Tells s s.arbitrate := by
  rcases s.arbitrate_cases with h | ⟨-, f, -, h⟩ <;> rw [h]
  · exact .refl
  · exact s.grant_tells f

theorem State.reportSlot_tells (s : State) (k : SlotIx) (before : Option Nat) :
    Tells s (s.reportSlot k before) := by
  unfold State.reportSlot
  split
  · exact .refl
  split
  · exact s.gateReading_tells k
  split
  · exact (s.rejudgeDp_aside _).tells.trans (State.arbitrate_tells _)
  · exact (Tells.foldl State.judgeTanks_tells _ s).trans (State.arbitrate_tells _)

theorem State.readingFault_aside (s : State) (k : SlotIx) (c : Cause) (v : Nat) :
    Aside s (s.readingFault k c v) := s.notify_aside _ nofun

theorem State.endSubstitute_tells (s : State) (k : SlotIx) (c : Cause) : Tells s (s.endSubstitute k c) := by
  unfold State.endSubstitute
  extract_lets x
  split
  · exact .refl
  extract_lets t u
  have ht : Tells s t := (Aside.of_fields (t := s.putSlot k _)).tells.aside (State.notify_aside _ _ nofun)
  have hu : Tells s u := by
    unfold u
    split
    · exact ht.aside (t.readingFault_aside _ _ _)
    · exact ht.aside (t.readingFault_aside _ _ _)
    · exact ht
    · exact ht
  exact hu.trans (u.reportSlot_tells _ _)

theorem State.readingMode_tells (s : State) : Tells s s.readingMode := by
  have hends := Tells.foldl (fun t k => t.endSubstitute_tells k .mode) (List.finRange 22) s
  unfold State.readingMode
  cases s.modeNow with
  | fallback | hold | lockout => exact hends
  | startup | commission | supervised => exact .refl

theorem State.seqMode_tells (s : State) : Tells s s.seqMode := by
  unfold State.seqMode
  split
  · exact Tells.foldl (fun t f => t.abort_tells f .lockout) _ s
  · exact .refl

theorem State.rejudgeHours_aside (s : State) (f : FilterIx) : Aside s (s.rejudgeHours f) := .of_fields

theorem State.arbMode_tells (s : State) (old : Mode) : Tells s (s.arbMode old) := by
  unfold State.arbMode
  split
  · unfold State.forFilters
    exact (Tells.foldl (fun t f => (t.rejudgeHours_aside f).tells) _ s).trans (State.arbitrate_tells _)
  · exact s.arbitrate_tells

/-- What a new mode brings after the Dose Gate and the Runner have taken it tells lines of LIMIT and BACKWASH alone. -/
theorem State.laterMode_tells (s : State) (old : Mode) : Tells s (((s.readingMode).seqMode).arbMode old) :=
  (s.readingMode_tells.trans (State.seqMode_tells _)).trans (State.arbMode_tells _ old)

end Sys2Proof.Machine
end

section
/-!
PROOFS. What a line keeps while lines are told of LIMIT and BACKWASH: its latched causes, that it asks for nothing, its
fault, and a programme that runs on it alone at its point; and that permits which cannot be due stay off.
-/

namespace Sys2Proof.Machine

open Sys2Proof.Safety Sys2Proof.Claims

/-! ## One line -/

/-- A property of a line, its permit and its programme that stands for `i` while the line itself is told. -/
theorem Tells.keeps_line {Q : Line → Bool → Option Prog → Prop} {s t : State} {i : LineIx} (h : Tells s t)
    (told : ∀ {t : State} (limit backwash : Bool),
      Q (t.gate.get i) (t.pins.permits.get i) (t.runner.progs.get i) →
      Q ((t.applyCauses i { (t.gate.get i).causes with limit := limit, backwash := backwash }).gate.get i)
        ((t.applyCauses i { (t.gate.get i).causes with limit := limit, backwash := backwash }).pins.permits.get i)
        ((t.applyCauses i { (t.gate.get i).causes with
          limit := limit, backwash := backwash }).runner.progs.get i))
    (hs : Q (s.gate.get i) (s.pins.permits.get i) (s.runner.progs.get i)) :
    Q (t.gate.get i) (t.pins.permits.get i) (t.runner.progs.get i) := by
  refine h.keeps (P := fun t => Q (t.gate.get i) (t.pins.permits.get i) (t.runner.progs.get i))
    (fun k hq => ?_) (fun {t} j limit backwash hq => ?_) hs
  · rwa [k.gate, k.permits, k.progs]
  · by_cases hj : i = j
    · subst hj
      exact told limit backwash hq
    · obtain ⟨h1, h2, h3⟩ := (t.applyCauses_onlyLine j _).others i hj
      rwa [h1, h2, h3]

/-- A DISABLED line takes no causes. -/
theorem Tells.disabled {s t : State} {i : LineIx} (h : Tells s t) (hd : (s.gate.get i).state = .disabled) :
    t.gate.get i = s.gate.get i :=
  h.keeps_line (Q := fun l _ _ => l = s.gate.get i) (fun {t} limit backwash hq => by
    rw [t.applyCauses_disabled i _ (by rw [hq]; exact hd)]
    exact hq) rfl

/-- The causes other than LIMIT and BACKWASH stand. -/
theorem Tells.causes {s t : State} (h : Tells s t) (i : LineIx) : ∃ limit backwash : Bool,
    (t.gate.get i).causes = { (s.gate.get i).causes with limit := limit, backwash := backwash } := by
  refine h.keeps_line (Q := fun l _ _ => ∃ limit backwash : Bool,
    l.causes = { (s.gate.get i).causes with limit := limit, backwash := backwash })
    (fun {t} limit backwash hq => ?_) ⟨_, _, rfl⟩
  by_cases hd : (t.gate.get i).state = .disabled
  · rw [t.applyCauses_disabled i _ hd]
    exact hq
  · obtain ⟨l, b, hq⟩ := hq
    exact ⟨limit, backwash, by rw [(t.applyCauses_causes i _ hd).1, hq]⟩

/-- The line asks for nothing whatever causes it takes (R61). -/
theorem State.applyCauses_asksNothing {s : State} {i : LineIx} (h : AsksNothing s i) (j : LineIx)
    (new : Causes) : AsksNothing (s.applyCauses j new) i := by
  obtain ⟨hprog, hrequested, hsource, hadmitted⟩ := h
  by_cases hj : i = j
  · subst hj
    by_cases hd : (s.gate.get i).state = .disabled
    · rw [s.applyCauses_disabled i _ hd]
      exact ⟨hprog, hrequested, hsource, hadmitted⟩
    · obtain ⟨-, -, hr, ha, hs, -, hp⟩ := s.applyCauses_withdrawn i new hd (.inl hrequested)
      exact ⟨hp hprog, hr, by rw [hs, hsource, ite_self], ha⟩
  · obtain ⟨h1, -, h3⟩ := (s.applyCauses_onlyLine j new).others i hj
    exact ⟨h3.trans hprog, by rw [h1, hrequested], by rw [h1, hsource], by rw [h1, hadmitted]⟩

theorem Tells.asksNothing {s t : State} {i : LineIx} (h : Tells s t) (hs : AsksNothing s i) : AsksNothing t i := by
  refine h.keeps (P := fun t => AsksNothing t i) (fun k hq => ?_) (fun j _ _ hq => State.applyCauses_asksNothing hq j _)
    hs
  rwa [AsksNothing, k.gate, k.progs]

/-! ## No programme, no end of one -/

/-- From `s` to `t` no PROGRAMME_END is sent. -/
def EndsNone (s t : State) : Prop :=
  ∀ n : Notice, n.kind = .programmeEnd → n ∈ t.ports.notices → n ∈ s.ports.notices

theorem EndsNone.refl (s : State) : EndsNone s s := fun _ _ h => h

theorem EndsNone.trans {s t u : State} (h : EndsNone s t) (k : EndsNone t u) : EndsNone s u :=
  fun n hn hu => h n hn (k n hn hu)

theorem State.notify_endsNone (s : State) (n : Notice) (h : n.kind ≠ .programmeEnd) : EndsNone s (s.notify n) :=
  (s.notify_aside n h).ends

/-- On line `i` no programme runs in `t`, nor has one ended from `s` on. -/
structure Unprogrammed (i : LineIx) (s t : State) : Prop where
  prog : t.runner.progs.get i = none
  ends : EndsNone s t

theorem Unprogrammed.trans {i : LineIx} {s t u : State} (h : Unprogrammed i s t) (k : Unprogrammed i t u) :
    Unprogrammed i s u := ⟨k.prog, h.ends.trans k.ends⟩

section
variable {s : State} {i : LineIx} (h : s.runner.progs.get i = none)
include h

theorem State.putLine_unprogrammed (l : Line) : Unprogrammed i s (s.putLine i l) :=
  ⟨by rw [State.putLine_prog, h]; rfl, .refl s⟩

theorem State.endProgramme_none (c : Cause) : s.endProgramme i c = s := by
  simp only [State.endProgramme, h]

theorem State.excludeDrop_unprogrammed : Unprogrammed i s (s.excludeDrop i) := by
  have hput := State.putLine_unprogrammed h { s.gate.get i with
    state := .stopped, requested := 0, source := .none, resume := 0 }
  refine ⟨State.endProgramme_prog _ _ _, ?_⟩
  unfold State.excludeDrop State.refuse
  dsimp only
  rw [State.endProgramme_none (by simp [h])]
  exact hput.ends.trans (State.notify_endsNone _ _ nofun)

theorem State.recompute_unprogrammed (w : For) : Unprogrammed i s (s.recompute w i) := by
  by_cases hdrop : (s.gate.get i).admitted = 0 ∧ 0 < (s.admittedRate i).1 ∧ s.otherDosing i = true
  · have heq : s.recompute w i = s.excludeDrop i := if_pos hdrop
    rw [heq]
    exact State.excludeDrop_unprogrammed h
  have hx : (s.gate.get i).admitted = 0 → 0 < (s.admittedRate i).1 → s.otherDosing i = false :=
    fun hz hp => Bool.eq_false_of_not_eq_true fun e => hdrop ⟨hz, hp, e⟩
  have hr := s.recompute_recomputed w i hx
  refine ⟨by rw [hr.prog, h]; rfl, ?_⟩
  by_cases hsame : (s.admittedRate i).1 = (s.gate.get i).admitted
  · intro n _ hn
    rwa [(hr.same hsame).2] at hn
  · have hnotices := (s.newRateSent_quiet w i).2.2
    have hsent : EndsNone s (s.newRateSent w i) := fun n _ hn => by rwa [hnotices] at hn
    rw [s.recompute_changed w i hx hsame]
    split
    · exact hsent.trans (State.notify_endsNone _ _ nofun)
    · exact hsent

theorem State.resumeExpired_unprogrammed : Unprogrammed i s (s.resumeExpired i) := by
  unfold State.resumeExpired
  dsimp only
  split
  · exact State.excludeDrop_unprogrammed h
  split
  · exact State.putLine_unprogrammed h _
  · have hput := State.putLine_unprogrammed h { s.gate.get i with state := .dosing, resume := 0 }
    exact hput.trans (State.recompute_unprogrammed hput.prog .event)

/-- A line with no programme takes its causes and has none (R61). -/
theorem State.applyCauses_unprogrammed (new : Causes) : Unprogrammed i s (s.applyCauses i new) := by
  unfold State.applyCauses
  extract_lets l cleared requested next resumes delay t u
  split
  · exact ⟨h, .refl s⟩
  have ht : Unprogrammed i s t := State.putLine_unprogrammed h _
  have hu : Unprogrammed i s u := by
    unfold u
    split
    · rw [State.endProgramme_none ht.prog]
      exact ht
    · exact ht
  split
  · exact hu.trans (State.resumeExpired_unprogrammed hu.prog)
  · exact hu.trans (State.recompute_unprogrammed hu.prog .event)

end

/-- Where no programme runs, none ends while lines are told (R61, R85). -/
theorem Tells.unprogrammed {s t : State} (h : Tells s t) (hs : ∀ i, s.runner.progs.get i = none) :
    (∀ i, t.runner.progs.get i = none) ∧ EndsNone s t := by
  refine h.keeps (P := fun t => (∀ i, t.runner.progs.get i = none) ∧ EndsNone s t) (fun k hq => ?_)
    (fun {t} j limit backwash hq => ?_) ⟨hs, .refl s⟩
  · exact ⟨fun i => by rw [k.progs]; exact hq.1 i, hq.2.trans k.ends⟩
  · have hj := State.applyCauses_unprogrammed (hq.1 j)
      { (t.gate.get j).causes with limit := limit, backwash := backwash }
    refine ⟨fun i => ?_, hq.2.trans hj.ends⟩
    by_cases hi : i = j
    · subst hi
      exact hj.prog
    · rw [((t.applyCauses_onlyLine j _).others i hi).2.2, hq.1 i]

/-! ## Faults and latched causes -/

/-- A FAULTED line that asks for nothing, with its permit off (R74). -/
structure Faulted (t : State) (i : LineIx) (reason : LineFault) : Prop where
  state : (t.gate.get i).state = .faulted
  fault : (t.gate.get i).fault = some reason
  asks : AsksNothing t i
  permit : t.pins.permits.get i = false

theorem State.applyCauses_faulted {s : State} {i : LineIx} {reason : LineFault} (h : Faulted s i reason)
    (j : LineIx) (new : Causes) : Faulted (s.applyCauses j new) i reason := by
  have hasks := State.applyCauses_asksNothing h.asks j new
  by_cases hj : i = j
  · subst hj
    have hd : (s.gate.get i).state ≠ .disabled := by rw [h.state]; exact nofun
    obtain ⟨-, hstate, -, -, -, hfault, -⟩ := s.applyCauses_withdrawn i new hd (.inl h.asks.2.1)
    have hfaulted : ((s.applyCauses i new).gate.get i).state = .faulted := by
      rw [hstate, Line.nextState, h.state]
    refine ⟨hfaulted, hfault.trans h.fault, hasks, ?_⟩
    have hset := (s.applyCauses_causes i new hd).2
    rw [hset, State.permitDue, hfaulted]
    rfl
  · obtain ⟨h1, h2, h3⟩ := (s.applyCauses_onlyLine j new).others i hj
    exact ⟨by rw [h1, h.state], by rw [h1, h.fault], hasks, h2.trans h.permit⟩

theorem Tells.faulted {s t : State} {i : LineIx} {reason : LineFault} (h : Tells s t) (hs : Faulted s i reason) :
    Faulted t i reason := by
  refine h.keeps (P := fun t => Faulted t i reason) (fun k hq => ?_)
    (fun j _ _ hq => State.applyCauses_faulted hq j _) hs
  exact ⟨by rw [k.gate, hq.state], by rw [k.gate, hq.fault],
    by rw [AsksNothing, k.gate, k.progs]; exact hq.asks, by rw [k.permits, hq.permit]⟩

/-- A line under a cause is INHIBITED, or stays FAULTED, with no rate: its pump is sent 0 if it had one, and a new CIRC_STOP
or PLANT_STOP ends its programme (R54, R61, R85). -/
theorem State.applyCauses_under (s : State) (i : LineIx) (new : Causes) (hd : (s.gate.get i).state ≠ .disabled)
    (hany : new.any = true) :
    ((s.applyCauses i new).gate.get i).state =
        (if (s.gate.get i).state = .faulted then .faulted else .inhibited) ∧
      ((s.applyCauses i new).gate.get i).admitted = 0 ∧
      ((s.gate.get i).admitted ≠ 0 → OffersOnly s (s.applyCauses i new) (s.lineEntry i) 0) ∧
      ((s.gate.get i).causes.clearedBy new ≠ none → (s.applyCauses i new).runner.progs.get i = none) := by
  have hnext (n : Nat) : (s.gate.get i).nextState new n =
      if (s.gate.get i).state = .faulted then .faulted else .inhibited := by
    unfold Line.nextState
    cases hs : (s.gate.get i).state with
    | disabled => exact absurd hs hd
    | faulted => rfl
    | inhibited | stopped | dosing | resuming => simp [hany]
  unfold State.applyCauses
  extract_lets l cleared requested next resumes delay t u
  rw [if_neg hd]
  have hstate : next = if (s.gate.get i).state = .faulted then .faulted else .inhibited := hnext requested
  have hnot : ¬ (resumes ∧ delay = 0) := by
    rintro ⟨⟨-, hn⟩, -⟩
    rw [hstate] at hn
    split at hn <;> contradiction
  have hu : u.gate = t.gate ∧ u.ports.segments = t.ports.segments ∧ u.tables = t.tables ∧
      (l.causes.clearedBy new ≠ none → u.runner.progs.get i = none) := by
    unfold u
    split
    · exact ⟨(t.endProgramme_quiet i _).gate, t.endProgramme_segments i _, (t.endProgramme_gate i _).tables,
        fun _ => t.endProgramme_prog i _⟩
    · exact ⟨rfl, rfl, rfl, fun hc => absurd (by assumption) hc⟩
  obtain ⟨hgate, hsegments, htables, hends⟩ := hu
  have hline : (u.gate.get i).state = next ∧ (u.gate.get i).admitted = l.admitted := by
    rw [hgate, State.putLine_get]
    exact ⟨rfl, rfl⟩
  have hidle : ¬ ((u.gate.get i).state = .dosing ∧ (u.gate.get i).causes.any = false) := by
    rintro ⟨hn, -⟩
    rw [hline.1, hstate] at hn
    split at hn <;> contradiction
  have h := u.recompute_idle .event i hidle
  have hrate : (u.admittedRate i).1 = 0 := by rw [u.admittedRate_idle i hidle]
  rw [if_neg hnot]
  refine ⟨by rw [h.fields]; exact hline.1.trans hstate, h.admitted.trans hrate, fun hne => ?_,
    fun hc => by rw [h.prog, hends hc]; rfl⟩
  have hsent := h.offers (by rw [hrate, hline.2]; exact Ne.symm hne) nofun
  rw [hrate, show u.lineEntry i = s.lineEntry i from State.entryOf_congr htables (.line i)] at hsent
  exact offersOnly_of_ports hsent htables hsegments

/-- A line under a cause that is not LIMIT or BACKWASH stays INHIBITED (R62). -/
theorem Tells.inhibited {s t : State} {i : LineIx} (h : Tells s t) (hs : (s.gate.get i).state = .inhibited)
    (hc : (s.gate.get i).causes.firstLatched ≠ none) : (t.gate.get i).state = .inhibited := by
  have hany (c : Causes) (limit backwash : Bool) (hl : c.firstLatched ≠ none) :
      ({ c with limit := limit, backwash := backwash } : Causes).firstLatched ≠ none ∧
        ({ c with limit := limit, backwash := backwash } : Causes).any = true := by
    refine ⟨hl, ?_⟩
    by_contra hn
    simp only [Causes.any, Bool.or_eq_true, not_or, Bool.not_eq_true] at hn
    exact hl (by simp [Causes.firstLatched, hn])
  refine (h.keeps_line (Q := fun l _ _ => l.state = .inhibited ∧ l.causes.firstLatched ≠ none)
    (fun {t} limit backwash hq => ?_) ⟨hs, hc⟩).1
  obtain ⟨hstate, hlatched⟩ := hq
  have hd : (t.gate.get i).state ≠ .disabled := by rw [hstate]; exact nofun
  obtain ⟨hkeeps, hsome⟩ := hany _ limit backwash hlatched
  refine ⟨?_, by rw [(t.applyCauses_causes i _ hd).1]; exact hkeeps⟩
  rw [(t.applyCauses_under i _ hd hsome).1, hstate]
  rfl

/-! ## Permits -/

/-- No permit can be due, and none is on (R55). -/
structure Barred (t : State) : Prop where
  why : t.pins.plantStop = true ∨ t.modeNow.permits = false
  off : ∀ i : LineIx, t.pins.permits.get i = false

theorem State.permitDue_barred {t : State} (h : t.pins.plantStop = true ∨ t.modeNow.permits = false)
    (i : LineIx) : t.permitDue i = false := by
  unfold State.permitDue
  rcases h with h | h <;> simp [h]

theorem State.applyCauses_barred {s : State} (h : Barred s) (j : LineIx) (new : Causes) :
    Barred (s.applyCauses j new) := by
  have honly := s.applyCauses_onlyLine j new
  have hwhy : (s.applyCauses j new).pins.plantStop = true ∨ (s.applyCauses j new).modeNow.permits = false := by
    rw [honly.frame.plantStop, honly.frame.modeNow]
    exact h.why
  refine ⟨hwhy, fun i => ?_⟩
  by_cases hi : i = j
  · subst hi
    by_cases hd : (s.gate.get i).state = .disabled
    · rw [s.applyCauses_disabled i _ hd]
      exact h.off i
    · rw [(s.applyCauses_causes i new hd).2]
      exact State.permitDue_barred hwhy i
  · exact (honly.others i hi).2.1.trans (h.off i)

theorem Tells.barred {s t : State} (h : Tells s t) (hs : Barred s) : Barred t := by
  refine h.keeps (P := Barred) (fun k hq => ?_) (fun j _ _ hq => State.applyCauses_barred hq j _) hs
  exact ⟨by rw [k.plantStop, k.modeNow]; exact hq.why, fun i => by rw [k.permits]; exact hq.off i⟩

/-! ## A programme on a line that is alone at its point -/

theorem State.otherDosing_of_alone {s : State} {i : LineIx} (h : Alone s i) : s.otherDosing i = false := by
  rw [State.otherDosing_false]
  exact fun j hj hp => (h j hj hp).2.2

/-- Another line's event leaves the line alone, if the lines at its point keep what they have. -/
theorem alone_of_lines {s t : State} {i : LineIx} (h : Alone s i) (ht : t.tables = s.tables)
    (hlines : ∀ j, j ≠ i → (s.gate.get j).state = .disabled → t.gate.get j = s.gate.get j) : Alone t i := by
  intro j hj hp
  rw [ht] at hp ⊢
  obtain ⟨henabled, hdisabled, hadmitted⟩ := h j hj hp
  rw [hlines j hj hdisabled]
  exact ⟨henabled, hdisabled, hadmitted⟩

theorem State.applyCauses_alone {s : State} {i : LineIx} (h : Alone s i) (j : LineIx) (new : Causes) :
    Alone (s.applyCauses j new) i := by
  refine alone_of_lines h (s.applyCauses_onlyLine j new).frame.tables fun k _ hd => ?_
  by_cases hk : k = j
  · subst hk
    rw [s.applyCauses_disabled k _ hd]
  · exact ((s.applyCauses_onlyLine j new).others k hk).1

/-- The programme as it is but for its pause (R82). -/
def Prog.unpaused (p : Prog) : Prog := { p with paused := false }

theorem State.map_markPaused (s : State) (i : LineIx) (l : Line) (p : Option Prog) :
    (p.map (s.markPaused i l)).map Prog.unpaused = p.map Prog.unpaused := by
  cases p <;> rfl

/-- What an event on the line leaves of its request: rate, source and programme, whatever its pause. -/
structure RequestKept (s t : State) (i : LineIx) : Prop where
  requested : (t.gate.get i).requested = (s.gate.get i).requested
  source : (t.gate.get i).source = (s.gate.get i).source
  prog : (t.runner.progs.get i).map Prog.unpaused = (s.runner.progs.get i).map Prog.unpaused

theorem RequestKept.refl (s : State) (i : LineIx) : RequestKept s s i := ⟨rfl, rfl, rfl⟩

theorem RequestKept.trans {s t u : State} {i : LineIx} (h : RequestKept s t i) (k : RequestKept t u i) :
    RequestKept s u i :=
  ⟨k.requested.trans h.requested, k.source.trans h.source, k.prog.trans h.prog⟩

theorem State.putLine_requestKept (s : State) (i : LineIx) (l : Line)
    (hr : l.requested = (s.gate.get i).requested) (ho : l.source = (s.gate.get i).source) :
    RequestKept s (s.putLine i l) i :=
  ⟨by rw [State.putLine_get, hr], by rw [State.putLine_get, ho], by
    rw [State.putLine_prog, State.map_markPaused]⟩

theorem Recomputed.requestKept {s t : State} {w : For} {i : LineIx} (h : Recomputed s t w i) : RequestKept s t i :=
  ⟨by rw [h.fields], by rw [h.fields], by rw [h.prog, State.map_markPaused]⟩

/-- A line at whose point no other doses keeps its request through causes that latch nothing (R61, R62). -/
theorem State.applyCauses_requestKept {s : State} {i : LineIx} {new : Causes} (hx : s.otherDosing i = false)
    (hl : (s.gate.get i).causes.latchedNew new = false) : RequestKept s (s.applyCauses i new) i := by
  by_cases hd : (s.gate.get i).state = .disabled
  · rw [s.applyCauses_disabled i _ hd]
    exact .refl s i
  rw [s.applyCauses_unlatched i new hd hl]
  set delay := (s.tables.lines.get i).resumeDelay
  set p := s.putLine i ((s.gate.get i).told new delay) with hp
  have hput : RequestKept s p i := s.putLine_requestKept i _ rfl rfl
  have hfree : p.otherDosing i = false := (s.putLine_otherDosing i _).trans hx
  split
  · unfold State.resumeExpired
    dsimp only
    rw [if_neg fun e => by rw [hfree] at e; exact absurd e.2 (by decide)]
    split
    · exact hput.trans (p.putLine_requestKept i _ rfl rfl)
    · have hfree' := (p.putLine_otherDosing i { p.gate.get i with state := .dosing, resume := 0 }).trans hfree
      have hdosing : RequestKept p (p.putLine i { p.gate.get i with state := .dosing, resume := 0 }) i :=
        p.putLine_requestKept i _ rfl rfl
      exact (hput.trans hdosing).trans (State.recompute_recomputed _ .event i fun _ _ => hfree').requestKept
  · exact hput.trans (p.recompute_recomputed .event i fun _ _ => hfree).requestKept

/-- A line alone at its point keeps its request while lines are told of LIMIT and BACKWASH. -/
theorem Tells.requestKept {s t : State} {i : LineIx} (h : Tells s t) (hs : Alone s i) : RequestKept s t i := by
  refine (h.keeps (P := fun t => Alone t i ∧ RequestKept s t i) (fun k hq => ?_)
    (fun {t} j limit backwash hq => ?_) ⟨hs, .refl s i⟩).2
  · refine ⟨alone_of_lines hq.1 k.tables fun _ _ _ => by rw [k.gate], hq.2.trans ?_⟩
    exact ⟨by rw [k.gate], by rw [k.gate], by rw [k.progs]⟩
  · refine ⟨State.applyCauses_alone hq.1 j _, hq.2.trans ?_⟩
    by_cases hj : i = j
    · subst hj
      exact State.applyCauses_requestKept (State.otherDosing_of_alone hq.1) (by simp [Causes.latchedNew])
    · obtain ⟨h1, -, h3⟩ := (t.applyCauses_onlyLine j _).others i hj
      exact ⟨by rw [h1], by rw [h1], by rw [h3]⟩

/-- A line whose request is kept is at the same place of its programme. -/
theorem RequestKept.runs {s t : State} {i : LineIx} {w : Which} {first : Nat} (h : RequestKept s t i)
    (htables : t.tables = s.tables) (hs : RunsFromFirst s i w first) : RunsFromFirst t i w first := by
  obtain ⟨⟨p, hp, hwhich, hposition, hremaining, hbatch⟩, hrequested, hsource⟩ := hs
  have hstep : t.stepAt first = s.stepAt first := by simp only [State.stepAt, htables]
  have hprog := h.prog
  rw [hp] at hprog
  obtain ⟨q, hq, hqp⟩ := Option.map_eq_some_iff.1 hprog
  have hsame (f : Prog → Prop) (hf : f p.unpaused) : f q.unpaused := hqp ▸ hf
  rw [RunsFromFirst, hstep, h.requested, h.source]
  exact ⟨⟨q, hq, hsame (·.which = w) hwhich, hsame (·.position = 0) hposition,
    hsame (·.remaining = (s.stepAt first).duration * 60) hremaining,
    hsame (·.batch = if (s.stepAt first).kind = .batch then some ⟨0, 0⟩ else none) hbatch⟩, hrequested, hsource⟩

end Sys2Proof.Machine
end

section
/-!
PROOFS. A change of mode (R69, R85, R135) on the lines: into HOLD, LOCKOUT and COMMISSION each line takes its causes and
every programme stops; the requests of the mode (R140, R143, R149, R151) as the statement has them.
-/

namespace Sys2Proof.Machine

open Sys2Proof.Safety Sys2Proof.Claims

/-! ## The change in its parts -/

/-- The mode has become `new`, the permits follow it, and PB goes off with LOCKOUT (R55, R135, R149). -/
def State.modeSet (s : State) (new : ModeState) : State :=
  let t : State := { s with mode := { s.mode with state := new } }
  if new.mode = .lockout then t.refreshPermits.setPb false else t.refreshPermits

/-- The mode set and told; no block has taken the report yet (R135). -/
def State.modeEntered (s : State) (new : ModeState) (cause : Cause) : State :=
  (s.modeSet new).notify ⟨.modeChange, .mode, new.mode.number, cause, s.modeNow.number⟩

theorem State.changeMode_eq (s : State) (new : ModeState) (cause : Cause) : s.changeMode new cause =
    ((((((s.modeEntered new cause).gateMode s.modeNow).runnerMode).readingMode).seqMode).arbMode s.modeNow) := rfl

theorem State.modeSet_fields (s : State) (new : ModeState) :
    (s.modeSet new).gate = s.gate ∧ (s.modeSet new).runner = s.runner ∧ (s.modeSet new).tables = s.tables ∧
      (s.modeSet new).clock = s.clock ∧ (s.modeSet new).modeNow = new.mode ∧
      (s.modeSet new).pins.permits = .ofFn (State.permitDue { s with mode := { s.mode with state := new } }) ∧
      (s.modeSet new).ports = s.ports ∧ (s.modeSet new).mgmt = s.mgmt ∧ (s.modeSet new).slots = s.slots ∧
      (s.modeSet new).flow = s.flow ∧ (s.modeSet new).seq = s.seq ∧ (s.modeSet new).arbiter = s.arbiter := by
  unfold State.modeSet
  dsimp only
  split <;> exact ⟨rfl, rfl, rfl, rfl, rfl, rfl, rfl, rfl, rfl, rfl, rfl, rfl⟩

/-- What stands when the mode has been entered. -/
theorem State.modeEntered_fields (s : State) (new : ModeState) (cause : Cause) :
    (s.modeEntered new cause).gate = s.gate ∧ (s.modeEntered new cause).runner = s.runner ∧
      (s.modeEntered new cause).tables = s.tables ∧ (s.modeEntered new cause).clock = s.clock ∧
      (s.modeEntered new cause).modeNow = new.mode ∧
      (s.modeEntered new cause).pins.permits =
        .ofFn (State.permitDue { s with mode := { s.mode with state := new } }) := by
  obtain ⟨hgate, hrunner, htables, hclock, hmode, hpermits, -⟩ := s.modeSet_fields new
  have h := (s.modeSet new).notify_quiet ⟨.modeChange, .mode, new.mode.number, cause, s.modeNow.number⟩
  exact ⟨h.gate.trans hgate, by rw [← hrunner]; simp [State.modeEntered], h.frame.tables.trans htables,
    h.frame.clock.trans hclock, h.frame.modeNow.trans hmode, h.permits.trans hpermits⟩

theorem State.modeEntered_notices (s : State) (new : ModeState) (cause : Cause) :
    (∀ n, Raised s n → Raised (s.modeEntered new cause) n) ∧ EndsNone s (s.modeEntered new cause) := by
  obtain ⟨-, -, -, -, -, -, hports, hmgmt, -⟩ := s.modeSet_fields new
  refine ⟨fun n hn => State.notify_keeps_raised (s := s.modeSet new) (by rwa [Raised, hports, hmgmt]) _,
    fun n hn hin => ?_⟩
  have hbefore := State.notify_endsNone (s.modeSet new)
    ⟨.modeChange, .mode, new.mode.number, cause, s.modeNow.number⟩ nofun n hn hin
  rwa [hports] at hbefore

/-- The programmes cleared at the report of a mode (R85). -/
def State.programmesCleared (s : State) : State :=
  { s with runner := { s.runner with progs := .fill none } }

theorem State.programmesCleared_prog (s : State) (i : LineIx) : s.programmesCleared.runner.progs.get i = none :=
  Table.get_fill none i

theorem State.programmesCleared_gate (s : State) : s.programmesCleared.gate = s.gate := rfl

/-- Outside FALLBACK the Runner clears its programmes and starts none (R85). -/
theorem State.runnerMode_plain (s : State) (h : s.modeNow ≠ .fallback) : s.runnerMode = s.programmesCleared :=
  if_neg h

/-- A mode on whose entry the Dose Gate sets no request (R59). -/
def Mode.plain (m : Mode) : Bool := m != .fallback && m != .supervised

theorem Mode.ne_of_plain {m : Mode} (h : m.plain = true) : m ≠ .fallback ∧ m ≠ .supervised := by
  simpa [Mode.plain] using h

/-- A mode in which no permit may be on is plain (R55). -/
theorem Mode.plain_of_permits {m : Mode} (h : m.permits = false) : m.plain = true := by
  cases m with
  | supervised | fallback | commission => contradiction
  | startup | hold | lockout => rfl

/-- Every mode but STARTUP has started (R143). -/
theorem Mode.started_of_ne {m : Mode} (h : m ≠ .startup) : m.started = true := by
  cases m with
  | startup => contradiction
  | commission | hold | supervised | fallback | lockout => rfl

/-- Of a line the Dose Gate does at a plain mode what the causes make of it (R69). -/
def State.takeMode (s : State) (old : Mode) (i : LineIx) : State := s.applyCauses i (s.modeCauses old i)

theorem State.takeMode_modeNow (s : State) (old : Mode) (i : LineIx) : (s.takeMode old i).modeNow = s.modeNow :=
  (s.applyCauses_gate i _).modeNow

/-- The report of a plain mode to the Dose Gate tells each line its causes. -/
theorem State.gateMode_plain (s : State) (old : Mode) (h : s.modeNow.plain = true) :
    s.gateMode old = s.forLines (fun t i => t.takeMode old i) := by
  have key : ∀ (l : List LineIx) (t : State), t.modeNow = s.modeNow →
      l.foldl (fun s i =>
        let t := s.applyCauses i (s.modeCauses old i)
        if t.modeNow = .fallback then
          if (t.tables.lines.get i).enabled && !t.hasDue i then t.zeroRequest i else t
        else if old = .fallback ∧ t.modeNow = .supervised ∧ (t.gate.get i).source = .programme then
          t.putLine i { t.gate.get i with source := .supervisor }
        else t) t = l.foldl (fun t i => t.takeMode old i) t := by
    intro l
    induction l with
    | nil => exact fun _ _ => rfl
    | cons i l ih =>
      intro t ht
      have hm : (t.takeMode old i).modeNow = s.modeNow := (t.takeMode_modeNow old i).trans ht
      obtain ⟨hfallback, hsupervised⟩ := Mode.ne_of_plain h
      rw [← hm] at hfallback hsupervised
      rw [List.foldl_cons, List.foldl_cons, ← ih _ hm]
      congr 1
      dsimp only
      rw [← State.takeMode, if_neg hfallback, if_neg fun e => hsupervised e.2.1]
  exact key _ s rfl

/-- What stands through the report of a plain mode: through the entry, through any causes that a line is told, through the
clearing of the programmes, and through what the other blocks do. -/
theorem State.changeMode_keeps {P : State → Prop} {s : State} {new : ModeState} {cause : Cause}
    (hnew : new.mode.plain = true) (entered : P (s.modeEntered new cause))
    (causes : ∀ (t : State) (i : LineIx) (c : Causes), P t → P (t.applyCauses i c))
    (cleared : ∀ t : State, P t → P t.programmesCleared) (aside : ∀ {t u : State}, Aside t u → P t → P u) :
    P (s.changeMode new cause) := by
  set t := s.modeEntered new cause with ht
  have hmode : t.modeNow = new.mode := (s.modeEntered_fields new cause).2.2.2.2.1
  have hplain : t.modeNow.plain = true := by rw [hmode]; exact hnew
  have hgate : P (t.gateMode s.modeNow) ∧ (t.gateMode s.modeNow).modeNow = t.modeNow := by
    rw [t.gateMode_plain s.modeNow hplain]
    exact List.foldlRecOn (motive := fun u => P u ∧ u.modeNow = t.modeNow) _ _ ⟨entered, rfl⟩ fun u hu i _ =>
      ⟨causes u i _ hu.1, (u.takeMode_modeNow _ i).trans hu.2⟩
  have hrunner : (t.gateMode s.modeNow).runnerMode = (t.gateMode s.modeNow).programmesCleared :=
    State.runnerMode_plain _ (by rw [hgate.2]; exact (Mode.ne_of_plain hplain).1)
  rw [State.changeMode_eq, hrunner]
  exact (State.laterMode_tells _ s.modeNow).keeps aside (fun i _ _ hq => causes _ i _ hq) (cleared _ hgate.1)

/-- Notices raised before a change to a plain mode stay raised. -/
theorem State.changeMode_raised {s : State} {new : ModeState} (hnew : new.mode.plain = true) (cause : Cause)
    {n : Notice} (h : Raised s n) : Raised (s.changeMode new cause) n :=
  State.changeMode_keeps (P := fun t => Raised t n) hnew ((s.modeEntered_notices new cause).1 n h)
    (fun t i c hq => (t.applyCauses_works (K := fun _ => True) (i := i) trivial c).raised n hq) (fun _ hq => hq)
    (fun k hq => k.raised n hq)

/-- A FAULTED line that asks for nothing stays so through a change to a plain mode. -/
theorem State.changeMode_faulted {s : State} {new : ModeState} (hnew : new.mode.plain = true) (cause : Cause)
    {i : LineIx} {reason : LineFault} (h : Faulted s i reason) : Faulted (s.changeMode new cause) i reason := by
  obtain ⟨hgate, hrunner, -, -, -, hpermits⟩ := s.modeEntered_fields new cause
  refine State.changeMode_keeps (P := fun t => Faulted t i reason) hnew ?_
    (fun t j c hq => State.applyCauses_faulted hq j c) (fun t hq => ?_) (fun k hq => k.tells.faulted hq)
  · refine ⟨by rw [hgate, h.state], by rw [hgate, h.fault], by rw [AsksNothing, hgate, hrunner]; exact h.asks, ?_⟩
    rw [hpermits, Table.get_ofFn, State.permitDue, h.state]
    rfl
  · obtain ⟨-, hrequested, hsource, hadmitted⟩ := hq.asks
    exact ⟨hq.state, hq.fault, ⟨t.programmesCleared_prog i, hrequested, hsource, hadmitted⟩, hq.permit⟩

/-- On the entry to a mode in which no permit may be on they are all off (R55, R149). -/
theorem State.changeMode_barred (s : State) (new : ModeState) (cause : Cause) (hnew : new.mode.permits = false) :
    Barred (s.changeMode new cause) := by
  obtain ⟨-, -, -, -, hmode, hpermits⟩ := s.modeEntered_fields new cause
  have hplain := Mode.plain_of_permits hnew
  refine State.changeMode_keeps hplain ⟨.inr (by rw [hmode]; exact hnew), fun i => ?_⟩
    (fun t j c hq => State.applyCauses_barred hq j c) (fun t hq => ⟨hq.why, hq.off⟩) (fun k hq => k.tells.barred hq)
  rw [hpermits, Table.get_ofFn]
  exact State.permitDue_barred (t := { s with mode := { s.mode with state := new } }) (.inr hnew) i

/-! ## The causes of the mode (R69) -/

/-- What line `i`, as it was in `s`, has made of the causes of mode `m`. -/
structure ModeTaken (s : State) (m : Mode) (i : LineIx) (t : State) : Prop where
  mode : t.modeNow = m
  causes : (s.gate.get i).state ≠ .disabled →
    (t.gate.get i).causes.hold = (m == .hold) ∧ (t.gate.get i).causes.lockout = (m == .lockout)
  asks : (s.gate.get i).state ≠ .disabled →
    (m = .hold ∧ (s.gate.get i).causes.hold = false) ∨ (m = .lockout ∧ (s.gate.get i).causes.lockout = false) →
    (t.gate.get i).requested = 0 ∧ (t.gate.get i).source = .none ∧ (t.gate.get i).admitted = 0

theorem State.takeMode_taken {s t : State} {m : Mode} {i : LineIx} (old : Mode) (hmode : t.modeNow = m)
    (hline : t.gate.get i = s.gate.get i) : ModeTaken s m i (t.takeMode old i) := by
  have hcauses (hd : (s.gate.get i).state ≠ .disabled) :
      ((t.takeMode old i).gate.get i).causes = t.modeCauses old i :=
    (t.applyCauses_causes i _ (by rw [hline]; exact hd)).1
  refine ⟨(t.takeMode_modeNow old i).trans hmode, fun hd => ?_, fun hd hnew => ?_⟩
  · rw [hcauses hd, ← hmode]
    exact ⟨rfl, rfl⟩
  · have hlatched : (t.gate.get i).causes.latchedNew (t.modeCauses old i) = true := by
      simp only [Causes.latchedNew, State.modeCauses, hline, hmode]
      rcases hnew with ⟨rfl, h⟩ | ⟨rfl, h⟩ <;> simp [h]
    obtain ⟨-, -, hr, ha, hs, -, -⟩ := t.applyCauses_withdrawn i (t.modeCauses old i) (by rw [hline]; exact hd)
      (.inr hlatched)
    exact ⟨hr, by rw [State.takeMode, hs, if_pos hlatched], ha⟩

/-- A line on the entry to HOLD or LOCKOUT (R69, R85). -/
theorem State.changeMode_taken (s : State) {new : ModeState} (hnew : new.mode.plain = true) (cause : Cause)
    (i : LineIx) :
    (s.changeMode new cause).runner.progs.get i = none ∧ ((s.gate.get i).state ≠ .disabled →
      ((s.changeMode new cause).gate.get i).causes.hold = (new.mode == .hold) ∧
      ((s.changeMode new cause).gate.get i).causes.lockout = (new.mode == .lockout) ∧
      ((new.mode = .hold ∧ (s.gate.get i).causes.hold = false) ∨
        (new.mode = .lockout ∧ (s.gate.get i).causes.lockout = false) →
        AsksNothing (s.changeMode new cause) i)) := by
  obtain ⟨hentered, -, -, -, hmode, -⟩ := s.modeEntered_fields new cause
  set t := s.modeEntered new cause with ht
  have hplain : t.modeNow.plain = true := by rw [hmode]; exact hnew
  have hgate : ModeTaken s new.mode i (t.gateMode s.modeNow) := by
    rw [t.gateMode_plain s.modeNow hplain]
    refine foldl_at (P := fun u => u.modeNow = new.mode ∧ u.gate.get i = s.gate.get i) (List.mem_finRange i)
      (List.nodup_finRange 12) (fun u j hj hu => ?_) (fun u hu => State.takeMode_taken s.modeNow hu.1 hu.2)
      (fun u j hj hu => ?_) ⟨hmode, by rw [hentered]⟩
    · exact ⟨(u.takeMode_modeNow _ j).trans hu.1,
        ((u.applyCauses_onlyLine j _).others i (Ne.symm hj)).1.trans hu.2⟩
    · have hline := ((u.applyCauses_onlyLine j (u.modeCauses s.modeNow j)).others i (Ne.symm hj)).1
      have hsame : (u.takeMode s.modeNow j).gate.get i = u.gate.get i := hline
      have hcauses := hu.causes
      have hasks := hu.asks
      rw [← hsame] at hcauses hasks
      exact ⟨(u.takeMode_modeNow _ j).trans hu.mode, hcauses, hasks⟩
  have hrunner : (t.gateMode s.modeNow).runnerMode = (t.gateMode s.modeNow).programmesCleared :=
    State.runnerMode_plain _ (by rw [hgate.mode, ← hmode]; exact (Mode.ne_of_plain hplain).1)
  rw [State.changeMode_eq, hrunner]
  have htells := State.laterMode_tells (t.gateMode s.modeNow).programmesCleared s.modeNow
  refine ⟨(htells.unprogrammed (State.programmesCleared_prog _)).1 i, fun hd => ?_⟩
  obtain ⟨limit, backwash, hcauses⟩ := htells.causes i
  obtain ⟨hhold, hlockout⟩ := hgate.causes hd
  rw [State.programmesCleared_gate] at hcauses
  rw [hcauses]
  dsimp only
  refine ⟨hhold, hlockout, fun hlatched => htells.asksNothing ?_⟩
  obtain ⟨hr, hs, ha⟩ := hgate.asks hd hlatched
  rw [AsksNothing, State.programmesCleared_gate]
  exact ⟨State.programmesCleared_prog _ i, hr, hs, ha⟩

/-! ## The requests of the mode -/

theorem ModeFrame.modeNow {s t : State} {new : ModeState} (h : ModeFrame s t new) : t.modeNow = new.mode :=
  congrArg ModeState.mode h.mode

/-- The retained record stands through a change of mode, but for the run hours. -/
theorem ModeFrame.retained {s t : State} {new : ModeState} (h : ModeFrame s t new) :
    t.mode.retained.recoveryCount = s.mode.retained.recoveryCount ∧
      t.mode.retained.lockoutFlag = s.mode.retained.lockoutFlag ∧
      t.mode.retained.lockoutCause = s.mode.retained.lockoutCause ∧ t.pins.lockout = s.pins.lockout :=
  ⟨congrArg (·.mode.retained.recoveryCount) h.frame.same, congrArg (·.mode.retained.lockoutFlag) h.frame.same,
    congrArg (·.mode.retained.lockoutCause) h.frame.same, h.frame.lockout⟩

/-- The entry to LOCKOUT sets the flag, its cause and the output (R149). -/
theorem State.enterLockout_locks (s : State) (lock : LockCause) (cause : Cause) :
    (s.enterLockout lock cause).mode.state = .lockout ∧ (s.enterLockout lock cause).pins.lockout = true ∧
      (s.enterLockout lock cause).mode.retained.lockoutFlag = true ∧
      (s.enterLockout lock cause).mode.retained.lockoutCause = some lock ∧
      ∀ i : LineIx, (s.enterLockout lock cause).pins.permits.get i = false := by
  have h := (s.setLockout lock).changeMode_frame .lockout cause
  obtain ⟨-, hflag, hcause, hpin⟩ := h.retained
  exact ⟨h.mode, hpin, hflag, hcause, ((s.setLockout lock).changeMode_barred .lockout cause rfl).off⟩

/-- A request of the mode with no arguments, in a mode that accepts it, is executed (R161). -/
theorem manage_noArgs {s : State} (hready : Ready s) (r : Request) (tag : Byte) {modeOk : Bool} (hm : modeOk = true)
    (body : Unit → Reply) : s.manage r tag modeOk (noArgs []) body = (body ()).finish r tag :=
  State.manage_runs hready.1 hm hready.2 rfl

/-- Settles O53: ENTER_SUPERVISED, ENTER_HOLD, LOCK, RELEASE, RESTART and CLEAR_RECOVERY_COUNT. -/
theorem modeRequestsTakeEffect : Obligations.ModeRequestsTakeEffect := by
  intro s tag hready
  refine ⟨fun hm => ?_, fun hm => ?_, fun hstartup hlockout => ?_, fun hm hkey => ?_, fun hm hkey => ?_,
    fun hm hw => ?_, fun hm hw => ?_, fun hm => ?_⟩
  · have h := s.changeMode_frame (.supervised s.freshLiveness) .request
    refine ⟨s.changeMode (.supervised s.freshLiveness) .request, ?_, h.mode, h.retained.1⟩
    simp only [exec, execEnterSupervised]
    rw [manage_noArgs hready _ _ (by rw [hm]; rfl)]
    rfl
  · have h := s.changeMode_frame .hold .request
    refine ⟨s.changeMode .hold .request, ?_, h.mode, h.retained.1, h.ended rfl, fun i => ?_⟩
    · simp only [exec, execEnterHold]
      rw [manage_noArgs hready _ _ (by rcases hm with hm | hm <;> rw [hm] <;> rfl)]
      rfl
    · obtain ⟨hprog, htaken⟩ := s.changeMode_taken (new := .hold) rfl .request i
      refine ⟨hprog, fun hd => ?_⟩
      obtain ⟨hhold, -, hasks⟩ := htaken hd
      exact ⟨hhold, fun hnew => hasks (.inl ⟨rfl, hnew⟩)⟩
  · obtain ⟨hmode, hpin, hflag, hcause, hpermits⟩ := s.enterLockout_locks .requested .requested
    refine ⟨s.enterLockout .requested .requested, ?_, hmode, hpin, hflag, hcause, fun i => ?_⟩
    · have hlockable : s.modeNow.lockable = true := by
        cases hm : s.modeNow with
        | startup => exact absurd hm hstartup
        | lockout => exact absurd hm hlockout
        | commission | hold | supervised | fallback => rfl
      simp only [exec, execLock]
      rw [manage_noArgs hready _ _ hlockable]
      rfl
    · obtain ⟨hprog, htaken⟩ := (s.setLockout .requested).changeMode_taken (new := .lockout) rfl .requested i
      refine ⟨hprog, hpermits i, fun hd => ?_⟩
      obtain ⟨-, hlock, hasks⟩ := htaken hd
      exact ⟨hlock, fun hnew => hasks (.inr ⟨rfl, hnew⟩)⟩
  · set r : State := { s.updRetained (fun r => { r with lockoutFlag := false, recoveryCount := 0 }) with
      pins := { s.pins with lockout := false } } with hr
    have h := r.changeMode_frame .hold .released
    obtain ⟨hcount, hflag, hcause, hpin⟩ := h.retained
    refine ⟨s.releaseLockout, ?_, h.mode, hpin, hflag, hcount, hcause⟩
    simp only [exec, execRelease]
    rw [manage_noArgs hready _ _ (by rw [hm]; rfl), if_pos hkey]
    rfl
  · simp only [exec, execRelease]
    rw [manage_noArgs hready _ _ (by rw [hm]; rfl), hkey]
    rfl
  · have hstarted := Mode.started_of_ne hm
    simp only [exec, execRestart]
    rw [manage_noArgs hready _ _ hstarted, hw]
    rfl
  · have hstarted := Mode.started_of_ne hm
    simp only [exec, execRestart]
    rw [manage_noArgs hready _ _ hstarted, if_pos (Option.isSome_iff_ne_none.2 hw)]
    rfl
  · simp only [exec, execClearRecoveryCount]
    rw [manage_noArgs hready _ _ (by rw [hm]; rfl)]
    rfl

end Sys2Proof.Machine
end

section
/-!
PROOFS. The entry to FALLBACK (R59, R86, R146) and the timers of the mode (R145-R148): an enabled line with a range for its
circuit's OPEN flag starts that programme at its first step, and one with none is asked for nothing.
-/

namespace Sys2Proof.Machine

open Sys2Proof.Safety Sys2Proof.Claims

/-! ## The Runner's operations are events on one line -/

theorem State.act_onlyLine (s : State) (w : For) (i : LineIx) (v : Nat) (o : Source) :
    OnlyLine i s (s.act w i v o) := (s.putLine_onlyLine i _).trans (State.recompute_onlyLine _ _ _)

theorem State.submit_onlyLine (s : State) (i : LineIx) (w : Which) (r : Nat) :
    OnlyLine i s (s.submit i w r).1 := by
  unfold State.submit
  split
  · exact .refl i s
  split
  · exact s.putLine_onlyLine i _
  · exact s.act_onlyLine _ _ _ _

theorem State.zeroRequest_onlyLine (s : State) (i : LineIx) : OnlyLine i s (s.zeroRequest i) :=
  (s.putLine_onlyLine i _).trans (State.recompute_onlyLine _ _ _)

theorem State.endAndRelease_onlyLine (s : State) (i : LineIx) (c : Cause) : OnlyLine i s (s.endAndRelease i c) :=
  (s.endProgramme_onlyLine i c).trans (State.release_released _ i).line

theorem State.beginStep_onlyLine (s : State) (i : LineIx) (w : Which) (n : Nat) :
    OnlyLine i s (s.beginStep i w n).1 := by
  unfold State.beginStep
  extract_lets r o
  have h : OnlyLine i s o.1 := (s.putProg_onlyLine i _).trans (State.submit_onlyLine _ _ _ _)
  split
  · exact h.trans (State.notify_onlyLine _ _ _)
  all_goals exact h

theorem State.startStep_onlyLine (s : State) (i : LineIx) (w : Which) (n : Nat) :
    OnlyLine i s (s.startStep i w n) := by
  unfold State.startStep
  dsimp only
  split
  · exact (s.beginStep_onlyLine i w n).trans (State.endAndRelease_onlyLine _ _ _)
  all_goals exact s.beginStep_onlyLine i w n

/-! ## A line that can start its programme -/

/-- The line is neither DISABLED nor FAULTED (R56). -/
def LineState.live (x : LineState) : Bool := x != .disabled && x != .faulted

theorem LineState.live_iff (x : LineState) : x.live = true ↔ x ≠ .disabled ∧ x ≠ .faulted := by
  simp [LineState.live]

theorem State.recompute_live (s : State) (w : For) (i : LineIx) (h : (s.gate.get i).state.live = true) :
    ((s.recompute w i).gate.get i).state.live = true := by
  rcases (s.recompute_line w i).2 with ⟨hstate, -⟩ | ⟨-, hstate, -⟩
  · rw [hstate, h]
  · rw [hstate]; rfl

theorem State.resumeExpired_live (s : State) (i : LineIx) : ((s.resumeExpired i).gate.get i).state.live = true := by
  unfold State.resumeExpired
  dsimp only
  split
  · rw [(s.excludeDrop_line i).2.1]; rfl
  split
  · rw [State.putLine_get]; rfl
  · exact State.recompute_live _ _ i (by rw [State.putLine_get]; rfl)

/-- A live line stays live whatever causes it is told (R61, R62). -/
theorem State.applyCauses_live (s : State) (i : LineIx) (new : Causes) (h : (s.gate.get i).state.live = true) :
    ((s.applyCauses i new).gate.get i).state.live = true := by
  have hlive (n : Nat) : ((s.gate.get i).nextState new n).live = true := by
    unfold Line.nextState
    cases hs : (s.gate.get i).state with
    | disabled | faulted => rw [hs] at h; contradiction
    | inhibited => dsimp only; split_ifs <;> rfl
    | stopped | dosing | resuming => dsimp only; split_ifs <;> rfl
  unfold State.applyCauses
  extract_lets l cleared requested next resumes delay t u
  split
  · exact h
  have hu : (u.gate.get i).state.live = true := by
    have ht : (t.gate.get i).state.live = true := by rw [State.putLine_get]; exact hlive requested
    unfold u
    split
    · rw [(t.endProgramme_quiet i _).gate]; exact ht
    · exact ht
  split
  · exact u.resumeExpired_live i
  · exact u.recompute_live .event i hu

/-- The line can start a programme in FALLBACK: it is alone at its point, live, and under no latched cause (R56). -/
structure Startable (t : State) (i : LineIx) : Prop where
  mode : t.modeNow = .fallback
  alone : Alone t i
  live : (t.gate.get i).state.live = true
  unlatched : (t.gate.get i).causes.firstLatched = none

theorem Startable.lineTest {t : State} {i : LineIx} (h : Startable t i) {v : Nat} (hv : v ≤ 60000) (w : Which) :
    t.lineTest i v (t.programmeMode w) = none := by
  obtain ⟨hdisabled, hfaulted⟩ := (LineState.live_iff _).1 h.live
  have hmode : t.programmeMode w = true := by rw [State.programmeMode, h.mode]; rfl
  rw [hmode, State.lineTest_last hv hdisabled hfaulted h.unlatched, State.otherDosing_of_alone h.alone]
  exact if_neg fun e => absurd e.2 (by decide)

/-- An event on another line, which leaves the disabled lines of this point, leaves the line startable. -/
theorem Startable.other {t u : State} {i j : LineIx} (h : Startable t i) (k : OnlyLine j t u) (hj : i ≠ j)
    (halone : Alone u i) : Startable u i := by
  obtain ⟨hline, -, -⟩ := k.others i hj
  exact ⟨k.frame.modeNow.trans h.mode, halone, by rw [hline]; exact h.live, by rw [hline]; exact h.unlatched⟩

/-- The first step of a programme with a range starts on such a line (R81, R86). -/
theorem Startable.starts {t : State} {i : LineIx} (h : Startable t i) {w : Which} {first count : Nat}
    (hrange : (t.tables.lines.get i).range w = ⟨some first, some count⟩) (hv : (t.stepAt first).rate ≤ 60000) :
    RunsFromFirst (t.startStep i w 0) i w first ∧ OnlyLine i t (t.startStep i w 0) := by
  have honly := t.startStep_onlyLine i w 0
  have hbegins := (Readied.refl t i).startStep (position := 0) hrange
  obtain ⟨hprog, hrequested, hsource, -⟩ := hbegins.1 (h.lineTest hv w)
  have hstep : (t.startStep i w 0).stepAt first = t.stepAt first := by
    simp only [State.stepAt, honly.frame.tables]
  rw [RunsFromFirst, hstep]
  exact ⟨⟨⟨_, hprog, rfl, rfl, rfl, rfl⟩, hrequested, hsource⟩, honly⟩

/-! ## The Dose Gate's report of FALLBACK (R59) -/

/-- Of a line the Dose Gate does at FALLBACK what the causes make of it, and the zero request where it has no range for
the OPEN flag (R59, R69). -/
def State.takeFallback (s : State) (old : Mode) (i : LineIx) : State :=
  if ((s.takeMode old i).tables.lines.get i).enabled && !(s.takeMode old i).hasDue i
    then (s.takeMode old i).zeroRequest i else s.takeMode old i

theorem State.takeFallback_onlyLine (s : State) (old : Mode) (i : LineIx) :
    OnlyLine i s (s.takeFallback old i) := by
  have h : OnlyLine i s (s.takeMode old i) := s.applyCauses_onlyLine i _
  unfold State.takeFallback
  split
  · exact h.trans (State.zeroRequest_onlyLine _ _)
  · exact h

theorem State.gateMode_fallback (s : State) (old : Mode) (h : s.modeNow = .fallback) :
    s.gateMode old = s.forLines (fun t i => t.takeFallback old i) := by
  have key : ∀ (l : List LineIx) (t : State), t.modeNow = .fallback →
      l.foldl (fun s i =>
        let t := s.applyCauses i (s.modeCauses old i)
        if t.modeNow = .fallback then
          if (t.tables.lines.get i).enabled && !t.hasDue i then t.zeroRequest i else t
        else if old = .fallback ∧ t.modeNow = .supervised ∧ (t.gate.get i).source = .programme then
          t.putLine i { t.gate.get i with source := .supervisor }
        else t) t = l.foldl (fun t i => t.takeFallback old i) t := by
    intro l
    induction l with
    | nil => exact fun _ _ => rfl
    | cons i l ih =>
      intro t ht
      have hm : (t.takeMode old i).modeNow = .fallback := (t.takeMode_modeNow old i).trans ht
      rw [List.foldl_cons, List.foldl_cons,
        ← ih _ ((t.takeFallback_onlyLine old i).frame.modeNow.trans ht)]
      congr 1
      dsimp only
      rw [← State.takeMode, if_pos hm]
      rfl
  exact key _ s h

/-- In FALLBACK, told of a line, the state still has what decides which programme is due (R86). -/
structure DueKept (s t : State) : Prop where
  mode : t.modeNow = .fallback
  tables : t.tables = s.tables
  clock : t.clock = s.clock

theorem DueKept.dueWhich {s t : State} (h : DueKept s t) (i : LineIx) : t.dueWhich i = s.dueWhich i := by
  simp only [State.dueWhich, h.clock, h.tables]

theorem DueKept.hasDue {s t : State} (h : DueKept s t) (i : LineIx) : t.hasDue i = s.hasDue i := by
  simp only [State.hasDue, h.dueWhich, h.tables]

theorem DueKept.step {s t u : State} {j : LineIx} (h : DueKept s t) (k : OnlyLine j t u) : DueKept s u :=
  ⟨k.frame.modeNow.trans h.mode, k.frame.tables.trans h.tables, k.frame.clock.trans h.clock⟩

/-- An event on a line leaves the lines at the point of `i` disabled, if it leaves disabled lines alone. -/
theorem alone_step {s t : State} {i j : LineIx} (h : Alone s i) (k : OnlyLine j s t)
    (hsame : (s.tables.lines.get j).enabled = false → (s.gate.get j).state = .disabled → t = s) : Alone t i := by
  intro m hm hp
  rw [k.frame.tables] at hp ⊢
  obtain ⟨henabled, hdisabled, hadmitted⟩ := h m hm hp
  by_cases hj : m = j
  · subst hj
    rw [hsame henabled hdisabled]
    exact ⟨henabled, hdisabled, hadmitted⟩
  · rw [(k.others m hj).1]
    exact ⟨henabled, hdisabled, hadmitted⟩

/-- A DISABLED line that is not enabled is told of no mode. -/
theorem State.takeFallback_disabled (s : State) (old : Mode) (i : LineIx)
    (he : (s.tables.lines.get i).enabled = false) (hd : (s.gate.get i).state = .disabled) :
    s.takeFallback old i = s := by
  have hsame : s.takeMode old i = s := s.applyCauses_disabled i _ hd
  unfold State.takeFallback
  rw [hsame, if_neg (by simp [he])]

/-- The zero request leaves the line asking for nothing (R59). -/
theorem State.zeroRequest_line (s : State) (i : LineIx) :
    ((s.zeroRequest i).gate.get i).requested = 0 ∧ ((s.zeroRequest i).gate.get i).source = .none ∧
      ((s.zeroRequest i).gate.get i).admitted = 0 := by
  set p := s.putLine i { s.gate.get i with
    requested := 0, source := .none
    state := if (s.gate.get i).state = .dosing ∨ (s.gate.get i).state = .resuming then .stopped
      else (s.gate.get i).state
    resume := 0 } with hp
  have hzero : s.zeroRequest i = p.recompute .event i := rfl
  have hrequested : (p.gate.get i).requested = 0 := by rw [hp, State.putLine_get]
  have hsource : (p.gate.get i).source = .none := by rw [hp, State.putLine_get]
  have hr := p.recompute_zero .event i hrequested
  rw [hzero, hr.fields]
  exact ⟨hrequested, hsource, p.admittedRate_zero i hrequested⟩

/-- A line that is due a programme and can take it is startable when the Dose Gate has taken FALLBACK. -/
theorem State.gateMode_startable {t : State} {i : LineIx} (old : Mode) (hm : t.modeNow = .fallback)
    (hdue : t.hasDue i = true) (halone : Alone t i) (hlive : (t.gate.get i).state.live = true)
    (hcirc : (t.gate.get i).causes.circStop = false) (hplant : (t.gate.get i).causes.plantStop = false) :
    Startable (t.gateMode old) i := by
  rw [t.gateMode_fallback old hm]
  have hkept (u : State) (j : LineIx) (hu : Alone u i) : Alone (u.takeFallback old j) i :=
    alone_step hu (u.takeFallback_onlyLine old j) (u.takeFallback_disabled old j)
  refine (foldl_at (P := fun u => DueKept t u ∧ Alone u i ∧ u.gate.get i = t.gate.get i)
    (Q := fun u => Startable u i) (List.mem_finRange i) (List.nodup_finRange 12)
    (fun u j hj hu => ?_) (fun u hu => ?_) (fun u j hj hu => ?_) ⟨⟨hm, rfl, rfl⟩, halone, rfl⟩)
  · obtain ⟨hsame, hu, hline⟩ := hu
    have k := u.takeFallback_onlyLine old j
    exact ⟨hsame.step k, hkept u j hu, (k.others i (Ne.symm hj)).1.trans hline⟩
  · obtain ⟨hsame, hu, hline⟩ := hu
    have htaken : OnlyLine i u (u.takeMode old i) := u.applyCauses_onlyLine i _
    have heq : u.takeFallback old i = u.takeMode old i :=
      if_neg (by rw [(hsame.step htaken).hasDue, hdue]; simp)
    have hne : (u.gate.get i).state ≠ .disabled := by
      rw [hline]; exact ((LineState.live_iff _).1 hlive).1
    have hmode : (u.modeNow == .hold) = false ∧ (u.modeNow == .lockout) = false := by
      rw [hsame.mode]; exact ⟨rfl, rfl⟩
    have hcauses : ((u.takeMode old i).gate.get i).causes = u.modeCauses old i :=
      (u.applyCauses_causes i _ hne).1
    rw [heq]
    refine ⟨(hsame.step htaken).mode, State.applyCauses_alone hu i _,
      u.applyCauses_live i _ (by rw [hline]; exact hlive), ?_⟩
    rw [hcauses]
    simp [State.modeCauses, Causes.firstLatched, hline, hcirc, hplant, hmode]
  · exact hu.other (u.takeFallback_onlyLine old j) (Ne.symm hj) (hkept u j hu.alone)

/-- A line that is due no programme is asked for nothing once the Dose Gate has taken FALLBACK. -/
theorem State.gateMode_withdrawn {t : State} {i : LineIx} (old : Mode) (hm : t.modeNow = .fallback)
    (henabled : (t.tables.lines.get i).enabled = true) (hdue : t.hasDue i = false) :
    ((t.gateMode old).gate.get i).requested = 0 ∧ ((t.gateMode old).gate.get i).source = .none ∧
      ((t.gateMode old).gate.get i).admitted = 0 := by
  rw [t.gateMode_fallback old hm]
  refine foldl_at (P := DueKept t) (Q := fun u => (u.gate.get i).requested = 0 ∧
      (u.gate.get i).source = .none ∧ (u.gate.get i).admitted = 0) (List.mem_finRange i) (List.nodup_finRange 12)
    (fun u j _ hu => hu.step (u.takeFallback_onlyLine old j)) (fun u hu => ?_) (fun u j hj hu => ?_) ⟨hm, rfl, rfl⟩
  · have htaken : DueKept t (u.takeMode old i) := hu.step (u.applyCauses_onlyLine i _)
    have heq : u.takeFallback old i = (u.takeMode old i).zeroRequest i :=
      if_pos (by rw [htaken.hasDue, hdue, htaken.tables, henabled]; rfl)
    rw [heq]
    exact State.zeroRequest_line _ i
  · rw [((u.takeFallback_onlyLine old j).others i (Ne.symm hj)).1]
    exact hu

/-! ## The Runner's report of FALLBACK (R86) -/

/-- Of a line the Runner does at FALLBACK the start of its programme, if it is enabled and due one. -/
def State.startDue (s : State) (i : LineIx) : State :=
  if (s.tables.lines.get i).enabled && s.hasDue i then s.startStep i (s.dueWhich i) 0 else s

theorem State.startDue_onlyLine (s : State) (i : LineIx) : OnlyLine i s (s.startDue i) := by
  unfold State.startDue
  split
  · exact s.startStep_onlyLine i _ _
  · exact .refl i s

theorem State.runnerMode_fallback (s : State) (h : s.modeNow = .fallback) :
    s.runnerMode = s.programmesCleared.forLines State.startDue := if_pos h

theorem State.startDue_alone {s : State} {i : LineIx} (h : Alone s i) (j : LineIx) : Alone (s.startDue j) i :=
  alone_step h (s.startDue_onlyLine j) fun he _ => if_neg (by simp [he])

/-- A programme of the line is at its first step, and the line is alone at its point. -/
structure RunsAlone (i : LineIx) (w : Which) (first : Nat) (t : State) : Prop where
  runs : RunsFromFirst t i w first
  alone : Alone t i

/-- The programme that is due on a startable line runs from its first step once the Runner has taken FALLBACK. -/
theorem State.runnerMode_runs {t : State} {i : LineIx} {first count : Nat} (h : Startable t i)
    (henabled : (t.tables.lines.get i).enabled = true)
    (hrange : (t.tables.lines.get i).range (t.dueWhich i) = ⟨some first, some count⟩)
    (hv : (t.stepAt first).rate ≤ 60000) :
    RunsAlone i (t.dueWhich i) first t.runnerMode := by
  have hdue : t.hasDue i = true := by simp only [State.hasDue, hrange, Range.steps, Option.isSome_some]
  have hkept : DueKept t t.programmesCleared := ⟨h.mode, rfl, rfl⟩
  have hcleared : Startable t.programmesCleared i := ⟨h.mode, h.alone, h.live, h.unlatched⟩
  rw [t.runnerMode_fallback h.mode, State.forLines]
  refine foldl_at (P := fun u => DueKept t u ∧ Startable u i)
    (Q := RunsAlone i (t.dueWhich i) first) (List.mem_finRange i)
    (List.nodup_finRange 12) (fun u j hj hu => ?_) (fun u hu => ?_) (fun u j hj hu => ?_)
    ⟨hkept, hcleared⟩
  · exact ⟨hu.1.step (u.startDue_onlyLine j),
      hu.2.other (u.startDue_onlyLine j) (Ne.symm hj) (State.startDue_alone hu.2.alone j)⟩
  · obtain ⟨hkept, hstart⟩ := hu
    have heq : u.startDue i = u.startStep i (t.dueWhich i) 0 := by
      rw [State.startDue, hkept.hasDue, hkept.tables, hkept.dueWhich, henabled, hdue]
      rfl
    have hstep : u.stepAt first = t.stepAt first := by simp only [State.stepAt, hkept.tables]
    have hruns := (hstart.starts (w := t.dueWhich i) (by rw [hkept.tables]; exact hrange)
      (by rw [hstep]; exact hv)).1
    refine ⟨?_, State.startDue_alone hstart.alone i⟩
    rw [heq]
    exact hruns
  · have k := u.startDue_onlyLine j
    obtain ⟨hline, -, hprog⟩ := k.others i (Ne.symm hj)
    exact ⟨RequestKept.runs ⟨by rw [hline], by rw [hline], by rw [hprog]⟩ k.frame.tables hu.runs,
      State.startDue_alone hu.alone j⟩

/-- A line that is due no programme, and is asked for nothing, stays so when the Runner has taken FALLBACK. -/
theorem State.runnerMode_asksNothing {t : State} {i : LineIx} (hm : t.modeNow = .fallback)
    (hdue : t.hasDue i = false)
    (h : (t.gate.get i).requested = 0 ∧ (t.gate.get i).source = .none ∧ (t.gate.get i).admitted = 0) :
    AsksNothing t.runnerMode i := by
  have hkept : DueKept t t.programmesCleared := ⟨hm, rfl, rfl⟩
  have hcleared : AsksNothing t.programmesCleared i := ⟨t.programmesCleared_prog i, h⟩
  rw [t.runnerMode_fallback hm, State.forLines]
  refine (List.foldlRecOn (motive := fun u => DueKept t u ∧ AsksNothing u i) _ State.startDue
    ⟨hkept, hcleared⟩ fun u hu j _ => ?_).2
  obtain ⟨hkept, hasks⟩ := hu
  have k := u.startDue_onlyLine j
  refine ⟨hkept.step k, ?_⟩
  by_cases hj : i = j
  · subst hj
    have hsame : u.startDue i = u := if_neg (by rw [hkept.hasDue, hdue]; simp)
    rwa [hsame]
  · obtain ⟨hline, -, hprog⟩ := k.others i hj
    rwa [AsksNothing, hline, hprog]

/-! ## The entry to FALLBACK -/

section
variable {s : State} {f : Fallback} {cause : Cause} {i : LineIx}

theorem State.changeMode_fallback_runs {first count : Nat} (henabled : (s.tables.lines.get i).enabled = true)
    (hrange : (s.tables.lines.get i).range (s.dueWhich i) = ⟨some first, some count⟩)
    (htakes : TakesProgramme s i (s.stepAt first).rate) :
    RunsFromFirst (s.changeMode (.fallback f) cause) i (s.dueWhich i) first := by
  obtain ⟨halone, hdisabled, hfaulted, hcirc, hplant, hv⟩ := htakes
  obtain ⟨hgate, -, htables, hclock, hmode, -⟩ := s.modeEntered_fields (.fallback f) cause
  set t := s.modeEntered (.fallback f) cause with ht
  have hwhich : t.dueWhich i = s.dueWhich i := by simp only [State.dueWhich, hclock, htables]
  have hrange' : (t.tables.lines.get i).range (t.dueWhich i) = ⟨some first, some count⟩ := by
    rw [htables, hwhich]; exact hrange
  have hdue : t.hasDue i = true := by simp only [State.hasDue, hrange', Range.steps, Option.isSome_some]
  have halone' : Alone t i := by
    rw [Alone, htables, hgate]; exact halone
  have hstart : Startable (t.gateMode s.modeNow) i :=
    State.gateMode_startable s.modeNow hmode hdue halone'
      (by rw [hgate]; exact (LineState.live_iff _).2 ⟨hdisabled, hfaulted⟩) (by rw [hgate]; exact hcirc)
      (by rw [hgate]; exact hplant)
  have hwash := t.gateMode_wash s.modeNow
  have hwhich' : (t.gateMode s.modeNow).dueWhich i = s.dueWhich i := by
    simp only [State.dueWhich, hwash.clock, hwash.tables, hclock, htables]
  have hgatetables : (t.gateMode s.modeNow).tables = s.tables := hwash.tables.trans htables
  obtain ⟨hruns, hfree⟩ := State.runnerMode_runs hstart (by rw [hgatetables]; exact henabled)
    (by rw [hgatetables, hwhich']; exact hrange) (by rw [State.stepAt, hgatetables]; exact hv)
  rw [hwhich'] at hruns
  have htells := State.laterMode_tells (t.gateMode s.modeNow).runnerMode s.modeNow
  have htablesEnd : (s.changeMode (.fallback f) cause).tables = (t.gateMode s.modeNow).runnerMode.tables :=
    (State.changeMode_frame s _ cause).frame.tables.trans
      (hgatetables.symm.trans ((t.gateMode s.modeNow).runnerMode_wash.tables).symm)
  exact (htells.requestKept hfree).runs htablesEnd hruns

theorem State.changeMode_fallback_asksNothing (henabled : (s.tables.lines.get i).enabled = true)
    (hrange : ((s.tables.lines.get i).range (s.dueWhich i)).first = none) :
    AsksNothing (s.changeMode (.fallback f) cause) i := by
  obtain ⟨-, -, htables, hclock, hmode, -⟩ := s.modeEntered_fields (.fallback f) cause
  set t := s.modeEntered (.fallback f) cause with ht
  have hdueOf (u : State) (hu : u.tables = s.tables) (hc : u.clock = s.clock) : u.hasDue i = false := by
    have hwhich : u.dueWhich i = s.dueWhich i := by simp only [State.dueWhich, hc, hu]
    simp only [State.hasDue, hwhich, hu, Range.steps, hrange, Option.isSome_none]
  have hwash := t.gateMode_wash s.modeNow
  have hwithdrawn := State.gateMode_withdrawn s.modeNow hmode (by rw [htables]; exact henabled)
    (hdueOf t htables hclock)
  have htells := State.laterMode_tells (t.gateMode s.modeNow).runnerMode s.modeNow
  exact htells.asksNothing (State.runnerMode_asksNothing (hwash.modeNow.trans hmode)
    (hdueOf _ (hwash.tables.trans htables) (hwash.clock.trans hclock)) hwithdrawn)

end

/-! ## The timers of the mode (R145-R148) -/

/-- Where the raised recovery count exceeds its limit the part is locked out in place of FALLBACK (R146). -/
theorem State.enterFallback_locks {s : State} (cause : Cause)
    (h : s.tables.params.recoveryLimit < min 5 (s.mode.retained.recoveryCount + 1)) :
    s.enterFallback cause = s.raiseRecovery.enterLockout .recoveryLimit .recoveryLimit := if_pos h

theorem State.enterFallback_falls {s : State} (cause : Cause)
    (h : ¬ s.tables.params.recoveryLimit < min 5 (s.mode.retained.recoveryCount + 1)) :
    s.enterFallback cause = s.raiseRecovery.changeMode
      (.fallback ⟨0, s.tables.params.fallbackLimit, 0, none, s.periodNow⟩) cause := if_neg h

/-- The entry to FALLBACK leads to FALLBACK or to LOCKOUT (R146). -/
theorem State.enterFallback_mode (s : State) (cause : Cause) :
    (s.enterFallback cause).modeNow = .fallback ∨ (s.enterFallback cause).modeNow = .lockout := by
  by_cases h : s.tables.params.recoveryLimit < min 5 (s.mode.retained.recoveryCount + 1)
  · rw [State.enterFallback_locks cause h, State.modeNow, (State.enterLockout_locks _ _ _).1]
    exact .inr rfl
  · rw [State.enterFallback_falls cause h, (State.changeMode_frame _ _ cause).modeNow]
    exact .inl rfl

/-- The rows of the mode's timers in another mode than theirs (log entry 2). -/
theorem exec_timers_idle (s : State) :
    (s.modeNow ≠ .supervised → exec .livenessPeriodEnd s = .next s) ∧
      (s.modeNow ≠ .fallback → exec .returnTimerExpiry s = .next s ∧ exec .fallbackLimit s = .next s) := by
  simp only [exec, execLivenessPeriodEnd, execReturnTimerExpiry, execFallbackLimit, State.modeNow]
  cases s.mode.state with
  | supervised l => exact ⟨fun h => absurd rfl h, fun _ => ⟨rfl, rfl⟩⟩
  | fallback f => exact ⟨fun _ => rfl, fun h => absurd rfl h⟩
  | startup | commission | hold | lockout => exact ⟨fun _ => rfl, fun _ => ⟨rfl, rfl⟩⟩

/-- Settles O51: a period that ends in time, late, and late past the recovery limit; the return timer, the fallback
limit, and the rows of another mode. -/
theorem modeTimersEnd : Obligations.ModeTimersEnd := by
  refine ⟨fun s l hm hdue => ⟨fun hlate => ?_, fun hlate hlimit hcap => ?_, fun hlate hlimit hcap => ?_⟩,
    fun s f hm hz => ?_, fun s f hm hlimit => ?_, fun s => (exec_timers_idle s).1, fun s => (exec_timers_idle s).2⟩
  · refine ⟨s.periodLate l, ?_, ?_, rfl, ?_, ?_⟩
    · simp only [exec, execLivenessPeriodEnd, hm]
      rw [if_neg (Nat.not_lt.2 hdue), if_neg (by simp [hlate])]
    all_goals simp [State.periodLate]
  · have hfalls := State.enterFallback_falls (s := s) .silent (by omega)
    have hperiod : s.periodNow = l.period := by simp only [State.periodNow, hm]
    have h := s.raiseRecovery.changeMode_frame
      (.fallback ⟨0, s.tables.params.fallbackLimit, 0, none, s.periodNow⟩) .silent
    refine ⟨s.enterFallback .silent, ?_, ?_, ?_, ?_⟩
    · simp only [exec, execLivenessPeriodEnd, hm]
      rw [if_neg (Nat.not_lt.2 hdue), if_pos hlate]
    · rw [hfalls, h.mode, hperiod]
    · rw [hfalls, h.retained.1]
      exact Nat.min_eq_right (show s.mode.retained.recoveryCount + 1 ≤ 5 by omega)
    · intro i henabled w
      rw [hfalls]
      exact ⟨fun first count hrange htakes =>
          State.changeMode_fallback_runs (s := s.raiseRecovery) henabled hrange htakes,
        State.changeMode_fallback_asksNothing (s := s.raiseRecovery) henabled⟩
  · have hlocks := State.enterFallback_locks (s := s) .silent (by omega)
    obtain ⟨hmode, hpin, -, hcause, -⟩ := s.raiseRecovery.enterLockout_locks .recoveryLimit .recoveryLimit
    refine ⟨s.enterFallback .silent, ?_, ?_, ?_, ?_⟩
    · simp only [exec, execLivenessPeriodEnd, hm]
      rw [if_neg (Nat.not_lt.2 hdue), if_pos hlate]
    · rw [hlocks, State.modeNow, hmode]
      rfl
    · rw [hlocks, hpin]
    · rw [hlocks, hcause]
  · simp only [exec, execReturnTimerExpiry, hm, hz, if_true]
  · obtain ⟨hmode, hpin, hflag, hcause, hpermits⟩ := s.enterLockout_locks .fallbackTooLong .fallbackTooLong
    refine ⟨s.enterLockout .fallbackTooLong .fallbackTooLong, ?_, ?_, hpin, hflag, hcause, hpermits⟩
    · simp only [exec, execFallbackLimit, hm]
      rw [if_pos hlimit]
    · rw [State.modeNow, hmode]
      rfl

end Sys2Proof.Machine
end

section
/-!
PROOFS. The service attempts and the restore that run out (R115, R133): the filters, the lines and the pump that are not
settled, and what of them stands through the start-up decision.
-/

namespace Sys2Proof.Machine

open Sys2Proof.Safety Sys2Proof.Claims

/-! ## Filters that are not in BACKWASH -/

/-- Where no filter is eligible the Arbiter grants nothing (R106). -/
theorem State.arbitrate_idle (s : State) (h : ∀ f, s.eligible f = false) : s.arbitrate = s := by
  rcases s.arbitrate_cases with hsame | ⟨-, f, hwinner, -⟩
  · exact hsame
  · have heligible : s.eligible f = true := by
      unfold State.winner at hwinner
      split at hwinner
      · rename_i g hg
        rw [← Option.some.inj hwinner]
        exact (s.highest_eligible _ g hg).1
      · exact (s.highest_eligible _ f hwinner).1
    rw [h f] at heligible
    contradiction

/-- Outside SUPERVISED and FALLBACK no filter is eligible (R105). -/
theorem State.arbitrate_plain (s : State) (h : s.modeNow.plain = true) : s.arbitrate = s := by
  obtain ⟨hfallback, hsupervised⟩ := Mode.ne_of_plain h
  exact s.arbitrate_idle fun f => by simp [State.eligible, State.conditions, hfallback, hsupervised]

/-- From `s` to `t` the mode stays, and no filter changes that is not in BACKWASH. -/
structure OthersRest (s t : State) : Prop where
  mode : t.modeNow = s.modeNow
  filters : ∀ f, s.backwashOf f = none → t.seq.filters.get f = s.seq.filters.get f

theorem OthersRest.refl (s : State) : OthersRest s s := ⟨rfl, fun _ _ => rfl⟩

theorem OthersRest.trans {s t u : State} (h : OthersRest s t) (k : OthersRest t u) : OthersRest s u where
  mode := k.mode.trans h.mode
  filters f hf := (k.filters f (by rw [State.backwashOf, h.filters f hf]; exact hf)).trans (h.filters f hf)

theorem OthersRest.of_seq {s t : State} (hmode : t.modeNow = s.modeNow) (hseq : t.seq = s.seq) : OthersRest s t :=
  ⟨hmode, fun f _ => by rw [hseq]⟩

theorem OthersRest.of_gate {s t : State} (h : GateFrame s t) : OthersRest s t := .of_seq h.modeNow h.seq

/-- A fold in a mode in which every step leaves the other filters. -/
theorem OthersRest.foldl {α : Type} {f : State → α → State} {s : State}
    (h : ∀ t a, t.modeNow = s.modeNow → OthersRest t (f t a)) (l : List α) : OthersRest s (l.foldl f s) :=
  List.foldlRecOn (motive := OthersRest s) _ _ (.refl s) fun t ht a _ => ht.trans (h t a ht.mode)

theorem State.abort_rest (s : State) (f : FilterIx) (c : AbortCause) : OthersRest s (s.abort f c) := by
  have hworks := s.abort_works (K := fun x => ∀ g, x = .valves g → g = f) (f := f)
    (fun g e => by injection e with e; exact e.symm)
    (fun x hx g e => by subst e; exact hx.elim) nofun c
  refine ⟨hworks.modeNow, fun g hg => ?_⟩
  by_cases hgf : g = f
  · subst hgf
    rw [s.abort_none c hg]
  · exact hworks.filter g fun e => hgf (e g rfl)

theorem State.judgeTanks_rest (s : State) (f : FilterIx) : OthersRest s (s.judgeTanks f) := by
  unfold State.judgeTanks
  split
  · split
    · exact s.abort_rest _ _
    · exact .refl s
  · exact .refl s

theorem OthersRest.arbitrate {s t : State} (h : OthersRest s t) (hs : s.modeNow.plain = true) :
    OthersRest s t.arbitrate := by
  rw [t.arbitrate_plain (by rw [h.mode]; exact hs)]
  exact h

theorem State.reportSlot_rest (s : State) (hs : s.modeNow.plain = true) (k : SlotIx) (before : Option Nat) :
    OthersRest s (s.reportSlot k before) := by
  unfold State.reportSlot
  split
  · exact .refl s
  split
  · exact .of_gate (s.gateReading_gate k)
  split
  · exact OthersRest.arbitrate (.of_seq rfl rfl) hs
  · exact OthersRest.arbitrate (OthersRest.foldl (fun t f _ => t.judgeTanks_rest f) _) hs

theorem State.endSubstitute_rest (s : State) (hs : s.modeNow.plain = true) (k : SlotIx) (c : Cause) :
    OthersRest s (s.endSubstitute k c) := by
  cases hu : (s.slots.get k).sub with
  | none =>
    have hsame : s.endSubstitute k c = s := by simp only [State.endSubstitute, hu]
    rw [hsame]
    exact .refl s
  | some u =>
    have hput : OthersRest s (s.putSlot k ⟨(s.slots.get k).base, none⟩) := .of_seq rfl rfl
    have hsent := (State.substituteNotices_sent (s.putSlot k ⟨(s.slots.get k).base, none⟩) k c u
      (s.slots.get k).base).1
    have hbefore := hput.trans (.of_gate hsent.quiet.frame)
    rw [State.endSubstitute_eq c hu]
    exact hbefore.trans (State.reportSlot_rest _ (by rw [hbefore.mode]; exact hs) _ _)

theorem State.readingMode_rest (s : State) (hs : s.modeNow.plain = true) : OthersRest s s.readingMode := by
  have hends : OthersRest s ((List.finRange 22).foldl (fun t k => t.endSubstitute k .mode) s) :=
    OthersRest.foldl (fun t k ht => t.endSubstitute_rest (by rw [ht]; exact hs) k .mode) _
  unfold State.readingMode
  cases s.modeNow with
  | fallback | hold | lockout => exact hends
  | startup | commission | supervised => exact .refl s

theorem State.seqMode_rest (s : State) : OthersRest s s.seqMode := by
  unfold State.seqMode
  split
  · exact OthersRest.foldl (fun t f _ => t.abort_rest f .lockout) _
  · exact .refl s

theorem State.arbMode_rest (s : State) (hs : s.modeNow.plain = true) (old : Mode) :
    OthersRest s (s.arbMode old) := by
  unfold State.arbMode
  refine OthersRest.arbitrate ?_ hs
  split
  · exact OthersRest.foldl (f := State.rejudgeHours) (fun t f _ => .of_seq rfl rfl) _
  · exact .refl s

theorem State.programmesCleared_rest (s : State) : OthersRest s s.programmesCleared := .of_seq rfl rfl

/-- A change to a plain mode leaves the filters that are not in BACKWASH (R124). -/
theorem State.changeMode_filters {s : State} {new : ModeState} (hnew : new.mode.plain = true) (cause : Cause)
    {f : FilterIx} (hf : s.backwashOf f = none) :
    (s.changeMode new cause).seq.filters.get f = s.seq.filters.get f := by
  obtain ⟨-, -, -, -, hmode, -⟩ := s.modeEntered_fields new cause
  set t := s.modeEntered new cause with ht
  have hseq : t.seq = s.seq :=
    (State.notify_quiet _ _).frame.seq.trans (s.modeSet_fields new).2.2.2.2.2.2.2.2.2.2.1
  have hplain : t.modeNow.plain = true := by rw [hmode]; exact hnew
  have hgate : OthersRest t (t.gateMode s.modeNow) := by
    rw [t.gateMode_plain s.modeNow hplain]
    exact .of_gate (GateFrame.forLines (fun u i => u.applyCauses_gate i _) t)
  set u := t.gateMode s.modeNow with hu
  have hrunner : OthersRest t u.runnerMode := by
    rw [State.runnerMode_plain u (by rw [hgate.mode]; exact (Mode.ne_of_plain hplain).1)]
    exact hgate.trans u.programmesCleared_rest
  have hreading := hrunner.trans (State.readingMode_rest u.runnerMode (by rw [hrunner.mode]; exact hplain))
  have hsequencer := hreading.trans (State.seqMode_rest _)
  have hall := hsequencer.trans (State.arbMode_rest _ (by rw [hsequencer.mode]; exact hplain) s.modeNow)
  rw [State.changeMode_eq, hall.filters f (by rw [State.backwashOf, hseq]; exact hf), hseq]

/-! ## A service attempt that runs out (R115) -/

/-- The filter whose attempt has run out (R115). -/
theorem State.attemptExpired_fault (s : State) (f : FilterIx) :
    ((s.attemptExpired f).seq.filters.get f).state = .faulted .noReturn ∧
      ((s.attemptExpired f).seq.filters.get f).attempt = none ∧
      Raised (s.attemptExpired f) ⟨.filterFault, .filter, f.val + 1, .noReturn, 0⟩ := by
  have hfilter : (s.attemptExpired f).seq.filters.get f =
      { s.seq.filters.get f with state := .faulted .noReturn, attempt := none } := by
    simp [State.attemptExpired, State.filterFaultNotice]
  rw [hfilter]
  exact ⟨rfl, rfl, State.notify_raised _ _⟩

/-- An expired attempt is an event of the one filter. -/
theorem State.attemptExpired_others (s : State) {f g : FilterIx} (h : g ≠ f) :
    (s.attemptExpired f).seq.filters.get g = s.seq.filters.get g := by
  simp [State.attemptExpired, State.filterFaultNotice, Table.get_upd_ne _ _ h]

theorem State.attemptExpired_aside (s : State) (f : FilterIx) : Aside s (s.attemptExpired f) := by
  have hput : Aside s (s.updFilter f fun q => { q with state := .faulted .noReturn, attempt := none }) := .of_fields
  exact hput.trans (State.notify_aside _ _ nofun)

/-- A grant after the fault goes to another filter. -/
theorem State.attemptExpired_arbitrate (s : State) (f : FilterIx) :
    ((s.attemptExpired f).arbitrate.seq.filters.get f) = (s.attemptExpired f).seq.filters.get f ∧
      ∀ n, Raised (s.attemptExpired f) n → Raised (s.attemptExpired f).arbitrate n := by
  rcases (s.attemptExpired f).arbitrate_cases with hsame | ⟨-, g, hwinner, hgrant⟩
  · rw [hsame]
    exact ⟨rfl, fun _ h => h⟩
  · have hne : f ≠ g := by
      rintro rfl
      have hservice := State.winner_inService _ f hwinner
      rw [(s.attemptExpired_fault f).1] at hservice
      contradiction
    have hworks := (s.attemptExpired f).grant_works g
    rw [hgrant]
    exact ⟨hworks.filter f hne, hworks.raised⟩

/-! ## The restore that runs out (R133) -/

/-- The start-up decision is a change to LOCKOUT, COMMISSION or HOLD from a state in which the restore no longer runs and
the lockout flag may have been set (R133, R138). -/
theorem State.completeRestore_changes (s : State) : ∃ (t : State) (new : ModeState) (c : Cause),
    s.completeRestore = t.changeMode new c ∧ new.mode.plain = true ∧ new.mode ≠ .startup ∧ Aside s t ∧
      t.seq.filters = s.seq.filters ∧ t.seq.restore.running = false := by
  set r : State := { s with seq := { s.seq with restore := { s.seq.restore with running := false } } } with hr
  have hdone : s.completeRestore = r.startUpDecision := rfl
  have hside : Aside s r := .of_fields
  have hlock : Aside s (r.setLockout .recoveryLimit) := .of_fields
  rw [hdone]
  unfold State.startUpDecision
  dsimp only
  split
  · exact ⟨r, .lockout, _, rfl, rfl, nofun, hside, rfl, rfl⟩
  split
  · exact ⟨r.setLockout .recoveryLimit, .lockout, _, rfl, rfl, nofun, hlock, rfl, rfl⟩
  split
  · exact ⟨r, .commission, _, rfl, rfl, nofun, hside, rfl, rfl⟩
  split
  · exact ⟨r, .commission, _, rfl, rfl, nofun, hside, rfl, rfl⟩
  · exact ⟨r, .hold, _, rfl, rfl, nofun, hside, rfl, rfl⟩

/-- Of a filter at the restore limit its fault, if its attempt is pending (R133). -/
def State.filterExpired (s : State) (f : FilterIx) : State :=
  if s.filterUnsettled f then s.attemptExpired f else s

/-- Of a line at the restore limit its fault, if it is not settled (R133). -/
def State.lineExpired (s : State) (i : LineIx) : State :=
  if s.lineUnsettled i then s.faultLine i .noEcho (s.gate.get i).admitted else s

/-- The filters at the restore limit (R133). -/
def State.filtersExpired (s : State) : State := s.forFilters State.filterExpired

/-- The lines at the restore limit (R133). -/
def State.linesExpired (s : State) : State := s.forLines State.lineExpired

/-- The pump that is not settled at the restore limit is told before the restore completes (R133). -/
theorem State.restoreExpired_completes (s : State) : ∃ t : State, s.restoreExpired = t.completeRestore ∧
    Aside s.filtersExpired.linesExpired t ∧ t.seq = s.filtersExpired.linesExpired.seq ∧
    ∀ k, s.filtersExpired.linesExpired.seq.restore.pumpSettled = false →
      s.filtersExpired.linesExpired.pumpEntry = some k →
      Raised t ⟨.pumpUnconfirmed, .entry, k.val, .noEcho, 0⟩ := by
  unfold State.restoreExpired
  extract_lets u v w
  have hv : v = s.filtersExpired.linesExpired := rfl
  rw [← hv]
  refine ⟨w, rfl, ?_⟩
  unfold w
  split
  · rename_i k hsettled hentry
    refine ⟨v.notify_aside _ nofun, by simp, fun k' _ hk' => ?_⟩
    rw [← Option.some.inj (hentry.symm.trans hk')]
    exact v.notify_raised _
  · rename_i hnot
    exact ⟨.of_fields, rfl, fun k hs hk => absurd hk (hnot k hs)⟩

/-- Nothing but filters and notices: the lines, the pump's settling and the other fields of the restore stay. -/
structure FiltersOnly (s t : State) : Prop extends Aside s t where
  restore : t.seq.restore = s.seq.restore

theorem FiltersOnly.refl (s : State) : FiltersOnly s s := ⟨.of_fields, rfl⟩

theorem FiltersOnly.trans {s t u : State} (h : FiltersOnly s t) (k : FiltersOnly t u) : FiltersOnly s u :=
  ⟨h.toAside.trans k.toAside, k.restore.trans h.restore⟩

theorem State.filterExpired_only (s : State) (f : FilterIx) :
    FiltersOnly s (s.filterExpired f) := by
  unfold State.filterExpired
  split
  · exact ⟨s.attemptExpired_aside f, by simp [State.attemptExpired, State.filterFaultNotice]⟩
  · exact ⟨.of_fields, rfl⟩

/-- A filter whose attempt has run out: FAULTED and told (R115). -/
structure AttemptFaulted (f : FilterIx) (t : State) : Prop where
  state : (t.seq.filters.get f).state = .faulted .noReturn
  attempt : (t.seq.filters.get f).attempt = none
  raised : Raised t ⟨.filterFault, .filter, f.val + 1, .noReturn, 0⟩

/-- A filter as it was in `s`, with the lines too. -/
structure FilterSame (s : State) (f : FilterIx) (t : State) : Prop where
  only : FiltersOnly s t
  same : t.seq.filters.get f = s.seq.filters.get f

theorem FilterSame.unsettled {s t : State} {f : FilterIx} (h : FilterSame s f t) :
    t.filterUnsettled f = s.filterUnsettled f := by simp only [State.filterUnsettled, h.same, h.only.tables]

/-- The expiry of one filter leaves the others. -/
theorem State.filterExpired_others (t : State) {f g : FilterIx} (hg : f ≠ g) :
    (t.filterExpired g).seq.filters.get f = t.seq.filters.get f := by
  unfold State.filterExpired
  split
  · exact t.attemptExpired_others hg
  · rfl

/-- A filter whose attempt was pending is FAULTED (R133). -/
theorem State.filtersExpired_faulted {s : State} {f : FilterIx} (hu : s.filterUnsettled f = true) :
    AttemptFaulted f s.filtersExpired := by
  unfold State.filtersExpired State.forFilters
  refine foldl_at (P := FilterSame s f) (Q := AttemptFaulted f) (List.mem_finRange f) (List.nodup_finRange 8)
    (fun t g hg ht => ?_) (fun t ht => ?_) (fun t g hg ht => ?_) ⟨.refl s, rfl⟩
  · exact ⟨ht.only.trans (t.filterExpired_only g), (t.filterExpired_others (Ne.symm hg)).trans ht.same⟩
  · rw [State.filterExpired, if_pos (by rw [ht.unsettled, hu])]
    obtain ⟨hstate, hattempt, hraised⟩ := t.attemptExpired_fault f
    exact ⟨hstate, hattempt, hraised⟩
  · have hsame := t.filterExpired_others (Ne.symm hg)
    exact ⟨by rw [hsame, ht.state], by rw [hsame, ht.attempt], (t.filterExpired_only g).raised _ ht.raised⟩

/-- A filter whose attempt was not pending is as it was. -/
theorem State.filtersExpired_same {s : State} {f : FilterIx} (hu : s.filterUnsettled f = false) :
    FilterSame s f s.filtersExpired := by
  unfold State.filtersExpired State.forFilters
  refine List.foldlRecOn (motive := FilterSame s f) _ _ ⟨.refl s, rfl⟩ fun t ht g _ =>
    ⟨ht.only.trans (t.filterExpired_only g), ?_⟩
  by_cases hg : f = g
  · subst hg
    rw [State.filterExpired, if_neg (by rw [ht.unsettled, hu]; exact nofun)]
    exact ht.same
  · exact (t.filterExpired_others hg).trans ht.same

theorem State.filtersExpired_only (s : State) : FiltersOnly s s.filtersExpired := by
  unfold State.filtersExpired State.forFilters
  exact List.foldlRecOn (motive := FiltersOnly s) _ _ (.refl s) fun t ht g _ => ht.trans (t.filterExpired_only g)

/-- A line that is FAULTED at the restore limit (R74, R133). -/
theorem State.faultLine_faulted (s : State) (i : LineIx) (reason : LineFault) (value : Nat) :
    Faulted (s.faultLine i reason value) i reason ∧
      Raised (s.faultLine i reason value) ⟨.lineFault, .line, i.val + 1, reason.cause, value⟩ := by
  obtain ⟨hline, hpermit, hprog, -, hraised, -⟩ := s.faultLine_faults i reason value
  exact ⟨⟨by rw [hline], by rw [hline], by rw [AsksNothing, hline]; exact ⟨hprog, rfl, rfl, rfl⟩, hpermit⟩, hraised⟩

theorem State.faultLine_raised (s : State) (i : LineIx) (reason : LineFault) (value : Nat) {n : Notice}
    (h : Raised s n) : Raised (s.faultLine i reason value) n := by
  unfold State.faultLine
  extract_lets l t
  have ht : Raised t n := h
  have hsent := (t.originate_aside (t.lineEntry i) 0).raised n ht
  have htold := State.notify_keeps_raised hsent ⟨.lineFault, .line, i.val + 1, reason.cause, value⟩
  exact State.endProgramme_keeps_raised htold i _

theorem State.lineExpired_onlyLine (s : State) (i : LineIx) : OnlyLine i s (s.lineExpired i) := by
  unfold State.lineExpired
  split
  · exact (s.faultLine_faults i .noEcho _).2.2.2.2.2
  · exact .refl i s

theorem State.lineExpired_raised (s : State) (i : LineIx) {n : Notice} (h : Raised s n) :
    Raised (s.lineExpired i) n := by
  unfold State.lineExpired
  split
  · exact s.faultLine_raised i _ _ h
  · exact h

/-- A line that is FAULTED at the restore limit, with the rate it was at. -/
structure LineFaulted (i : LineIx) (rate : Nat) (t : State) : Prop where
  faulted : Faulted t i .noEcho
  raised : Raised t ⟨.lineFault, .line, i.val + 1, .noEcho, rate⟩

/-- A line that is not settled at the restore limit (R133). -/
theorem State.linesExpired_faulted {s : State} {i : LineIx} (hu : s.lineUnsettled i = true) :
    LineFaulted i (s.gate.get i).admitted s.linesExpired := by
  unfold State.linesExpired State.forLines
  refine foldl_at (P := fun t => t.gate.get i = s.gate.get i) (Q := LineFaulted i (s.gate.get i).admitted)
    (List.mem_finRange i) (List.nodup_finRange 12)
    (fun t j hj ht => ((t.lineExpired_onlyLine j).others i (Ne.symm hj)).1.trans ht) (fun t ht => ?_)
    (fun t j hj ht => ?_) rfl
  · have hline : t.lineUnsettled i = true := by rw [State.lineUnsettled, ht]; exact hu
    rw [State.lineExpired, if_pos hline, ht]
    obtain ⟨hfaulted, hraised⟩ := t.faultLine_faulted i .noEcho (s.gate.get i).admitted
    exact ⟨hfaulted, hraised⟩
  · obtain ⟨hline, hpermit, hprog⟩ := (t.lineExpired_onlyLine j).others i (Ne.symm hj)
    refine ⟨⟨by rw [hline]; exact ht.faulted.state, by rw [hline]; exact ht.faulted.fault, ?_,
      hpermit.trans ht.faulted.permit⟩, t.lineExpired_raised j ht.raised⟩
    rw [AsksNothing, hline, hprog]
    exact ht.faulted.asks

theorem State.linesExpired_gate (s : State) : GateFrame s s.linesExpired :=
  GateFrame.forLines (f := State.lineExpired) (fun t j => (t.lineExpired_onlyLine j).frame) s

theorem State.linesExpired_raised (s : State) {n : Notice} (h : Raised s n) : Raised s.linesExpired n := by
  unfold State.linesExpired State.forLines
  exact List.foldlRecOn (motive := fun t => Raised t n) _ _ h fun t ht j _ => t.lineExpired_raised j ht

/-- Settles O45: an attempt that runs out and one that does not, the restore limit, and the row without it. -/
theorem attemptsAndTheRestoreRunOut : Obligations.AttemptsAndTheRestoreRunOut := by
  refine ⟨fun s f hattempt hrestore => ?_, fun s f hnot => ?_, fun s hrunning hremaining => ?_, fun s hnot => ?_⟩
  · obtain ⟨hstate, hnone, hraised⟩ := s.attemptExpired_fault f
    obtain ⟨hfilter, hkept⟩ := s.attemptExpired_arbitrate f
    refine ⟨(s.attemptExpired f).arbitrate, ?_, by rw [hfilter, hstate], by rw [hfilter, hnone], hkept _ hraised⟩
    simp only [exec, execServiceAttemptExpiry, hattempt, hrestore, true_and, if_true]
  · simp only [exec, execServiceAttemptExpiry]
    rw [if_neg fun h => hnot.elim (· h.1) fun e => by rw [h.2] at e; contradiction]
  · obtain ⟨t, ht, haside, hseq, hpump⟩ := s.restoreExpired_completes
    obtain ⟨u, new, c, hu, hplain, hstartup, hside, hfilters, hstopped⟩ := t.completeRestore_changes
    have hchange : s.restoreExpired = u.changeMode new c := ht.trans hu
    have hframe := u.changeMode_frame new c
    have hfilteraside := s.filtersExpired_only
    have hgate := s.filtersExpired.linesExpired_gate
    have hfilterskept : u.seq.filters = s.filtersExpired.seq.filters := by rw [hfilters, hseq, hgate.seq]
    have hraised {n : Notice} (hn : Raised s.filtersExpired.linesExpired n) : Raised s.restoreExpired n := by
      rw [hchange]
      exact State.changeMode_raised hplain c (hside.raised n (haside.raised n hn))
    have hfilter {f : FilterIx} (hf : u.backwashOf f = none) :
        s.restoreExpired.seq.filters.get f = s.filtersExpired.seq.filters.get f := by
      rw [hchange, State.changeMode_filters hplain c hf, hfilterskept]
    refine ⟨s.restoreExpired, ?_, ?_, ?_, fun f hassigned hattempt => ?_, fun f hnone hidle => ?_,
      fun i hdisabled hfaulted hconfirmed => ?_, fun k hsettled hentry => ?_⟩
    · simp only [exec, execRestoreLimit, hrunning, hremaining, true_and, if_true]
    · rw [hchange, hframe.frame.restore]
      exact hstopped
    · rw [hchange, hframe.modeNow]
      exact hstartup
    · have hfault : AttemptFaulted f s.filtersExpired :=
        State.filtersExpired_faulted (by rw [State.filterUnsettled, hassigned, hattempt]; rfl)
      have hf : u.backwashOf f = none := by rw [State.backwashOf, hfilterskept, hfault.state]; rfl
      rw [hfilter hf]
      exact ⟨hfault.state, hfault.attempt, hraised (s.filtersExpired.linesExpired_raised hfault.raised)⟩
    · have hsame := (State.filtersExpired_same (s := s) (f := f) (by
        rw [State.filterUnsettled, hnone, Option.isSome_none, Bool.and_false])).same
      have hf : u.backwashOf f = none := by rw [State.backwashOf, hfilterskept, hsame]; exact hidle
      rw [hfilter hf, hsame]
    · have hunsettled : s.filtersExpired.lineUnsettled i = true := by
        rw [State.lineUnsettled, hfilteraside.gate]
        simp [hdisabled, hfaulted, hconfirmed]
      obtain ⟨hline, hnotice⟩ := State.linesExpired_faulted hunsettled
      have hafter : Faulted s.restoreExpired i .noEcho := by
        rw [hchange]
        exact State.changeMode_faulted hplain c (hside.tells.faulted (haside.tells.faulted hline))
      rw [hfilteraside.gate] at hnotice
      exact ⟨hafter.state, hafter.fault, hafter.asks, hafter.permit, hraised hnotice⟩
    · have htables : s.filtersExpired.linesExpired.tables = s.tables := hgate.tables.trans hfilteraside.tables
      have hnotice := hpump k (by rw [hgate.seq, hfilteraside.restore]; exact hsettled)
        ((State.entryOf_congr htables .pump).trans hentry)
      rw [hchange]
      exact State.changeMode_raised hplain c (hside.raised _ hnotice)
  · simp only [exec, execRestoreLimit]
    rw [if_neg fun h => hnot.elim (fun e => by rw [h.1] at e; contradiction) (· h.2)]

end Sys2Proof.Machine
end

section
/-!
PROOFS. An abort and a grant as the lines see them (R66, R116, R125): steps that work on the filters and the pump alone, and
lines told of BACKWASH as the stages give it. What stands through both kinds of step stands through the whole.
-/

namespace Sys2Proof.Machine

open Sys2Proof.Safety Sys2Proof.Claims

/-- The filters' valves and the pump: no line. -/
def lineless : PlantObject → Prop
  | .line _ => False
  | .valves _ | .pump => True

/-- From `s` to `t` no line is worked on, nor its programme, the mode and its record stay, and PB does not go on. -/
structure Beside (s t : State) : Prop where
  works : Works lineless s t
  progs : t.runner.progs = s.runner.progs
  mode : t.mode = s.mode
  pb : s.pins.pb = false → t.pins.pb = false

theorem Beside.trans {s t u : State} (h : Beside s t) (k : Beside t u) : Beside s u :=
  ⟨h.works.trans k.works, k.progs.trans h.progs, k.mode.trans h.mode, k.pb ∘ h.pb⟩

theorem Beside.of_gate {s t : State} (h : GateFrame s t) (k : Works lineless s t)
    (hprogs : t.runner.progs = s.runner.progs) : Beside s t :=
  ⟨k, hprogs, h.mode, fun hs => h.pb.trans hs⟩

theorem State.updFilter_beside (s : State) (f : FilterIx) (h : SeqFilter → SeqFilter) : Beside s (s.updFilter f h) :=
  ⟨s.updFilter_works trivial h, rfl, rfl, id⟩

theorem State.notify_beside (s : State) (n : Notice) : Beside s (s.notify n) :=
  .of_gate (s.notify_quiet n).frame (s.notify_works lineless n) (by simp)

theorem State.valvesSent_beside (s : State) (f : FilterIx) (v : Nat) : Beside s (s.originate (s.valveEntry f) v) :=
  .of_gate (s.originate_gate _ v) (s.originate_works (x := .valves f) _ v rfl trivial)
    (s.originate_aside _ v).progs

theorem State.pumpStopped_beside (s : State) : Beside s s.pumpStopped := by
  refine ⟨s.pumpStopped_works trivial, ?_, ?_, fun h => ?_⟩
  · unfold State.pumpStopped
    split
    · exact (State.originate_aside _ _ _).progs
    · rfl
  · unfold State.pumpStopped
    split
    · exact (State.originate_gate _ _ _).mode
    · rfl
  · unfold State.pumpStopped
    split
    · exact (State.originate_gate _ _ _).pb
    · exact h

theorem State.unrinsedNotice_beside (s : State) (f : FilterIx) (c : Cause) (g : Stage) :
    Beside s (s.unrinsedNotice f c g) :=
  (s.updFilter_beside f _).trans (State.notify_beside _ _)

/-- What is kept while a line is told of BACKWASH is kept through the report of a stage (R66). -/
theorem State.gateBackwash_keeps {P : State → Prop}
    (told : ∀ (t : State) (i : LineIx), P t →
      P (t.applyCauses i { (t.gate.get i).causes with backwash := t.backwashCause i }))
    {s : State} (h : P s) (c : CircuitIx) : P (s.gateBackwash c) := by
  unfold State.gateBackwash State.forLines
  refine List.foldlRecOn (motive := P) _ _ h fun t ht i _ => ?_
  split
  · exact told t i ht
  · exact ht

section
variable {P : State → Prop} (beside : ∀ {t u : State}, Beside t u → P t → P u)
  (told : ∀ (t : State) (i : LineIx), P t →
    P (t.applyCauses i { (t.gate.get i).causes with backwash := t.backwashCause i }))
include beside told

theorem State.enterStage_keeps {s : State} (h : P s) (f : FilterIx) (b : Backwash) (g : Stage) :
    P (s.enterStage f b g) := by
  unfold State.enterStage
  extract_lets b' t
  have ht : P t := by
    unfold t
    split
    · exact beside (s.unrinsedNotice_beside f _ _) h
    · exact h
  unfold State.beginMove
  extract_lets u
  have hu : P u := beside (t.updFilter_beside f _) ht
  exact State.gateBackwash_keeps told (beside (u.valvesSent_beside f _) hu) _

/-- What stands while the filters and the pump are worked on, and while a line is told of BACKWASH, stands through an
abort (R125). -/
theorem State.abort_keeps {s : State} (h : P s) (f : FilterIx) (c : AbortCause) : P (s.abort f c) := by
  have hstopped : P s.pumpStopped := beside s.pumpStopped_beside h
  unfold State.abort
  split
  · exact h
  extract_lets u t
  split
  · exact h
  have ht : P t := hstopped
  split
  · exact State.enterStage_keeps beside told ht _ _ _
  split
  · exact State.enterStage_keeps beside told ht _ _ _
  · exact ht

end

section
variable {P : State → Prop}
  (beside : ∀ {t u : State}, Beside t u → (∀ i, u.backwashCause i = t.backwashCause i) → P t → P u)
  (told : ∀ (t : State) (i : LineIx), P t →
    P (t.applyCauses i { (t.gate.get i).causes with backwash := t.backwashCause i }))
include beside told

/-- What stands through such steps stands through a grant, where BACKWASH stays as the stages gave it: the filter enters
ISOLATE, at which no bed is washed (R66, R116). -/
theorem State.grant_keeps {s : State} (h : P s) {f : FilterIx} (hf : (s.seq.filters.get f).state = .inService) :
    P (s.grant f) := by
  unfold State.grant
  extract_lets a b t u v
  have hkept : u.runner = s.runner ∧ u.seq = s.seq ∧ u.tables = s.tables ∧ u.mode = s.mode ∧ u.pins = s.pins := by
    unfold u State.cancelCheck
    split <;> exact ⟨rfl, rfl, rfl, rfl, rfl⟩
  obtain ⟨hrunner, hseq, htables, hmode, hpins⟩ := hkept
  have hbusy : Works lineless s u := .of_arbiter _ (by
    unfold u State.cancelCheck
    split <;> rfl)
  have hu : P u := by
    refine beside ⟨hbusy, congrArg Runner.progs hrunner, hmode, fun hp => by rw [hpins]; exact hp⟩ (fun i => ?_) h
    simp only [State.backwashCause, State.backwashOf, hseq, htables]
  have hv : P v := by
    unfold v State.beginMove
    extract_lets x
    have hx : P x := by
      refine beside (u.updFilter_beside f _) (fun i => State.backwashCause_congr rfl fun g _ => ?_) hu
      simp only [State.backwashOf, x, State.updFilter_fields, Table.get_upd]
      by_cases hgf : g = f
      · subst hgf
        rw [if_pos rfl, hseq, hf]
        exact .inr ⟨rfl, _, rfl, rfl⟩
      · rw [if_neg hgf]
        exact .inl rfl
    have hsent : GateFrame x (x.originate (x.valveEntry f) Stage.isolate.position) := x.originate_gate _ _
    refine State.gateBackwash_keeps told (beside (x.valvesSent_beside f _) (fun i => ?_) hx) _
    simp only [State.backwashCause, State.backwashOf, hsent.tables, hsent.seq]
  have htold := (v.notify_quiet ⟨.backwashGranted, .filter, f.val + 1, a.requests.first, a.rank⟩).frame
  refine beside (v.notify_beside _) (fun i => ?_) hv
  simp only [State.backwashCause, State.backwashOf, htold.tables, htold.seq]

theorem State.arbitrate_keeps {s : State} (h : P s) : P s.arbitrate := by
  rcases s.arbitrate_cases with hsame | ⟨-, f, hf, hgrant⟩
  · rw [hsame]; exact h
  · rw [hgrant]; exact State.grant_keeps beside told h (s.winner_inService f hf)

end

end Sys2Proof.Machine
end

section
/-!
PROOFS. The return to SUPERVISED (R59, R88, R147) and the REFRESH (R145): a line that stands as its causes and terms give it
keeps its state, its request and its rate, which is now the supervisor's, and no programme's end is told.
-/

namespace Sys2Proof.Machine

open Sys2Proof.Safety Sys2Proof.Claims

/-! ## A line told of the causes that it holds -/

/-- The admitted rate does not rest on the binding term (R53). -/
theorem State.admittedRate_fst {s t : State} {i : LineIx} (hterms : t.rateTerms i = s.rateTerms i)
    (hstate : (t.gate.get i).state = (s.gate.get i).state)
    (hcauses : (t.gate.get i).causes = (s.gate.get i).causes) :
    (t.admittedRate i).1 = (s.admittedRate i).1 := by
  by_cases hd : (s.gate.get i).state = .dosing ∧ (s.gate.get i).causes.any = false
  · rw [s.admittedRate_dosing i hd, t.admittedRate_dosing i (by rwa [hstate, hcauses]), hterms]
  · rw [s.admittedRate_idle i hd, t.admittedRate_idle i (by rwa [hstate, hcauses])]

theorem Causes.latchedNew_self (c : Causes) : c.latchedNew c = false := by
  simp [Causes.latchedNew]

/-- A settled line is in the state that its causes give (R62). -/
theorem settled_nextState {s : State} {i : LineIx} (h : Settled s i) :
    (s.gate.get i).nextState (s.gate.get i).causes (s.gate.get i).requested = (s.gate.get i).state := by
  obtain ⟨hfree, hunder, -⟩ := h
  unfold Line.nextState
  cases hs : (s.gate.get i).state with
  | disabled | faulted => rfl
  | inhibited => simp only [hunder hs, if_true]
  | stopped => simp [hfree (.inl hs)]
  | dosing => simp [hfree (.inr (.inl hs))]
  | resuming => simp [hfree (.inr (.inr hs))]

/-- Told of its causes as they are, a settled line stays, and nothing is commanded or told (R54, R61). -/
theorem State.applyCauses_same {s : State} {i : LineIx} (h : Settled s i) :
    ∃ resume binding, (s.applyCauses i (s.gate.get i).causes).gate.get i =
        { s.gate.get i with resume := resume, binding := binding } ∧
      (s.applyCauses i (s.gate.get i).causes).ports = s.ports := by
  by_cases hd : (s.gate.get i).state = .disabled
  · rw [s.applyCauses_disabled i _ hd]
    exact ⟨_, _, rfl, rfl⟩
  have hnext := settled_nextState h
  obtain ⟨hfree, hunder, -, -, -, hadmitted⟩ := h
  have hnot : ¬ (s.gate.get i).ResumesAtOnce (s.gate.get i).causes (s.tables.lines.get i).resumeDelay := by
    rintro ⟨⟨hinhibited, hresuming⟩, -⟩
    rw [hnext, hinhibited] at hresuming
    contradiction
  rw [s.applyCauses_unlatched i _ hd (Causes.latchedNew_self _), if_neg hnot]
  set p := s.putLine i ((s.gate.get i).told (s.gate.get i).causes (s.tables.lines.get i).resumeDelay) with hp
  have hline : p.gate.get i = (s.gate.get i).told (s.gate.get i).causes (s.tables.lines.get i).resumeDelay :=
    s.putLine_get i _
  have hsame : (p.admittedRate i).1 = (p.gate.get i).admitted := by
    rw [State.admittedRate_fst (State.rateTerms_congr (s.putLine_gate i _).offWash (by rw [hline]; rfl))
      (by rw [hline]; exact hnext) (by rw [hline]; rfl), hline]
    exact hadmitted.symm
  rw [p.recompute_same_rate .event i hsame, State.putLine_get, hline]
  refine ⟨((s.gate.get i).told (s.gate.get i).causes (s.tables.lines.get i).resumeDelay).resume,
    (p.admittedRate i).2, ?_, rfl⟩
  rw [Line.told, hnext]

/-! ## A line that stands -/

/-- In `t` line `i` is settled, and stands as in `r` but for its source, which is `o`. -/
structure Stands (r : State) (i : LineIx) (o : Source) (t : State) : Prop where
  settled : Settled t i
  state : (t.gate.get i).state = (r.gate.get i).state
  requested : (t.gate.get i).requested = (r.gate.get i).requested
  admitted : (t.gate.get i).admitted = (r.gate.get i).admitted
  source : (t.gate.get i).source = o

/-- A line stands where its fields that count, and what its rate and BACKWASH rest on, stay. -/
theorem Stands.fields {r t u : State} {i : LineIx} {o o' : Source} (h : Stands r i o t)
    (hoff : u.offWash = t.offWash) (hstate : (u.gate.get i).state = (t.gate.get i).state)
    (hrequested : (u.gate.get i).requested = (t.gate.get i).requested)
    (hadmitted : (u.gate.get i).admitted = (t.gate.get i).admitted)
    (hcauses : (u.gate.get i).causes = (t.gate.get i).causes) (hsource : (u.gate.get i).source = o')
    (hbackwash : u.backwashCause i = t.backwashCause i) : Stands r i o' u := by
  refine ⟨?_, hstate.trans h.state, hrequested.trans h.requested, hadmitted.trans h.admitted, hsource⟩
  obtain ⟨h1, h2, h3, h4, h5, h6⟩ := h.settled
  rw [Settled, hstate, hcauses, hadmitted, hbackwash, State.admittedRate_fst (State.rateTerms_congr hoff hrequested) hstate hcauses]
  exact ⟨h1, h2, h3, h4, h5, h6⟩

/-- It stands where the line itself stays. -/
theorem Stands.line {r t u : State} {i : LineIx} {o : Source} (h : Stands r i o t)
    (hoff : u.offWash = t.offWash) (hline : u.gate.get i = t.gate.get i)
    (hbackwash : u.backwashCause i = t.backwashCause i) : Stands r i o u :=
  h.fields hoff (by rw [hline]) (by rw [hline]) (by rw [hline]) (by rw [hline]) (by rw [hline, h.source]) hbackwash

theorem GateFrame.backwashCause {s t : State} (h : GateFrame s t) (i : LineIx) :
    t.backwashCause i = s.backwashCause i := by
  simp only [State.backwashCause, State.backwashOf, h.tables, h.seq]

/-- It stands while another line is worked on. -/
theorem Stands.other {r t u : State} {i j : LineIx} {o : Source} (h : Stands r i o t) (k : OnlyLine j t u)
    (hj : i ≠ j) : Stands r i o u :=
  h.line k.frame.offWash (k.others i hj).1 (k.frame.backwashCause i)

/-- It stands told of its own causes. -/
theorem Stands.told {r t : State} {i : LineIx} {o : Source} (h : Stands r i o t) {new : Causes}
    (hnew : new = (t.gate.get i).causes) : Stands r i o (t.applyCauses i new) := by
  obtain ⟨resume, binding, hline, -⟩ := State.applyCauses_same h.settled
  have hgate := t.applyCauses_gate i (t.gate.get i).causes
  rw [hnew]
  exact h.fields hgate.offWash (by rw [hline]) (by rw [hline]) (by rw [hline]) (by rw [hline])
    (by rw [hline, h.source]) (hgate.backwashCause i)

/-- An arbitration leaves a line that stands: it is told of BACKWASH as it is (R66). -/
theorem Stands.arbitrate {r t : State} {i : LineIx} {o : Source} (h : Stands r i o t) : Stands r i o t.arbitrate := by
  refine State.arbitrate_keeps (P := Stands r i o) (fun k hb hu => ?_) (fun u j hu => ?_) h
  · exact hu.line k.works.same (k.works.line i id) (hb i)
  · by_cases hj : i = j
    · subst hj
      obtain ⟨-, -, -, -, hbackwash, -⟩ := hu.settled
      exact hu.told (by rw [← hbackwash])
    · exact hu.other (u.applyCauses_onlyLine j _) hj

theorem State.programmesCleared_ports (s : State) : s.programmesCleared.ports = s.ports := rfl

theorem State.programmesCleared_modeNow (s : State) : s.programmesCleared.modeNow = s.modeNow := rfl

theorem Stands.programmesCleared {r t : State} {i : LineIx} {o : Source} (h : Stands r i o t) :
    Stands r i o t.programmesCleared := h.line rfl rfl rfl

/-! ## The Dose Gate's report of the return (R59) -/

/-- Of a line the Dose Gate does at the return what the causes make of it, and the programme's request becomes the
supervisor's (R59). -/
def State.takeReturn (s : State) (i : LineIx) : State :=
  if ((s.takeMode .fallback i).gate.get i).source = .programme then
    (s.takeMode .fallback i).putLine i { (s.takeMode .fallback i).gate.get i with source := .supervisor }
  else s.takeMode .fallback i

theorem State.takeReturn_onlyLine (s : State) (i : LineIx) : OnlyLine i s (s.takeReturn i) := by
  have h : OnlyLine i s (s.takeMode .fallback i) := s.applyCauses_onlyLine i _
  unfold State.takeReturn
  split
  · exact h.trans (State.putLine_onlyLine _ _ _)
  · exact h

theorem State.gateMode_return (s : State) (h : s.modeNow = .supervised) :
    s.gateMode .fallback = s.forLines State.takeReturn := by
  have key : ∀ (l : List LineIx) (t : State), t.modeNow = .supervised →
      l.foldl (fun s i =>
        let t := s.applyCauses i (s.modeCauses .fallback i)
        if t.modeNow = .fallback then
          if (t.tables.lines.get i).enabled && !t.hasDue i then t.zeroRequest i else t
        else if Mode.fallback = .fallback ∧ t.modeNow = .supervised ∧ (t.gate.get i).source = .programme then
          t.putLine i { t.gate.get i with source := .supervisor }
        else t) t = l.foldl State.takeReturn t := by
    intro l
    induction l with
    | nil => exact fun _ _ => rfl
    | cons i l ih =>
      intro t ht
      have hm : (t.takeMode .fallback i).modeNow = .supervised := (t.takeMode_modeNow .fallback i).trans ht
      rw [List.foldl_cons, List.foldl_cons, ← ih _ ((t.takeReturn_onlyLine i).frame.modeNow.trans ht)]
      congr 1
      dsimp only
      rw [← State.takeMode, if_neg (by rw [hm]; exact nofun)]
      simp only [hm, true_and, State.takeReturn]
  exact key _ s h

/-- The causes of the new mode are those that a settled line holds (R69, R70). -/
theorem State.modeCauses_settled {t : State} {i : LineIx} (h : Settled t i) (hm : t.modeNow = .supervised) :
    t.modeCauses .fallback i = (t.gate.get i).causes := by
  obtain ⟨-, -, hhold, hlockout, -, -⟩ := h
  have hlimit : ¬ (Mode.fallback = .commission ∨ Mode.supervised = .commission) := by decide
  simp only [State.modeCauses, hm, if_neg hlimit]
  cases hc : (t.gate.get i).causes with
  | mk flow limit backwash unreachable circStop plantStop hold lockout =>
    rw [hc] at hhold hlockout
    subst hhold hlockout
    rfl

/-- The source of a line after the return (R59). -/
def Source.returned (o : Source) : Source := if o = .programme then .supervisor else o

/-- In `t` the mode is SUPERVISED, and what was settled in `r` of the lines stands. -/
structure Returning (r : State) (i : LineIx) (o : Source) (t : State) : Prop where
  mode : t.modeNow = .supervised
  stands : Stands r i o t

theorem State.takeReturn_stands {r t : State} {i : LineIx} {o : Source} (hm : t.modeNow = .supervised)
    (h : Stands r i o t) : Stands r i o.returned (t.takeReturn i) := by
  have htaken : Stands r i o (t.takeMode .fallback i) := h.told (t.modeCauses_settled h.settled hm)
  unfold State.takeReturn Source.returned
  rw [htaken.source]
  split
  · have hput := (t.takeMode .fallback i).putLine_get i
      { (t.takeMode .fallback i).gate.get i with source := .supervisor }
    have hgate := (t.takeMode .fallback i).putLine_gate i
      { (t.takeMode .fallback i).gate.get i with source := .supervisor }
    exact htaken.fields hgate.offWash (by rw [hput]) (by rw [hput]) (by rw [hput]) (by rw [hput]) (by rw [hput])
      (hgate.backwashCause i)
  · exact htaken

/-- Told of its own causes, a settled line brings no command and no notice. -/
theorem State.takeReturn_ports {t : State} {i : LineIx} (hm : t.modeNow = .supervised) (h : Settled t i) :
    (t.takeReturn i).ports = t.ports := by
  obtain ⟨-, -, -, hports⟩ := State.applyCauses_same h
  have htaken : (t.takeMode .fallback i).ports = t.ports := by
    rw [State.takeMode, t.modeCauses_settled h hm, hports]
  unfold State.takeReturn
  split
  · exact htaken
  · exact htaken

/-- A settled line stands at the entry to SUPERVISED: no term of its rate rests on which of the two modes it is (R53). -/
theorem State.modeEntered_stands {s : State} {i : LineIx} (hm : s.modeNow = .fallback) (l : Liveness) (cause : Cause)
    (h : Settled s i) : Returning s i (s.gate.get i).source (s.modeEntered (.supervised l) cause) := by
  obtain ⟨hgate, -, htables, -, hmode, -, -, -, hslots, hflow, hseq, -⟩ := s.modeSet_fields (.supervised l)
  have htold := (s.modeSet (.supervised l)).notify_quiet
    ⟨.modeChange, .mode, (ModeState.supervised l).mode.number, cause, s.modeNow.number⟩
  have hterms : (s.modeSet (.supervised l)).rateTerms i = s.rateTerms i := by
    simp only [State.rateTerms, State.flowClass, State.blindApplies, State.reading, hgate, htables, hflow, hslots,
      hmode, hm]
    rfl
  have hset : Stands s i (s.gate.get i).source (s.modeSet (.supervised l)) := by
    refine ⟨?_, by rw [hgate], by rw [hgate], by rw [hgate], by rw [hgate]⟩
    rw [Settled, State.admittedRate_fst hterms (by rw [hgate]) (by rw [hgate]), hgate]
    simp only [State.backwashCause, State.backwashOf, htables, hseq]
    exact h
  exact ⟨htold.frame.modeNow.trans hmode,
    hset.line htold.frame.offWash (congrArg (·.get i) htold.gate) (htold.frame.backwashCause i)⟩

/-- The Dose Gate's report of the return leaves a settled line as it is, but for its source (R59). -/
theorem State.gateMode_returns {r t : State} {i : LineIx} {o : Source} (h : Returning r i o t) :
    Returning r i o.returned (t.gateMode .fallback) := by
  rw [t.gateMode_return h.mode, State.forLines]
  refine foldl_at (P := Returning r i o) (Q := Returning r i o.returned) (List.mem_finRange i)
    (List.nodup_finRange 12) (fun u j hj hu => ?_) (fun u hu => ?_) (fun u j hj hu => ?_) h
  · have k := u.takeReturn_onlyLine j
    exact ⟨k.frame.modeNow.trans hu.mode, hu.stands.other k (Ne.symm hj)⟩
  · exact ⟨(u.takeReturn_onlyLine i).frame.modeNow.trans hu.mode, State.takeReturn_stands hu.mode hu.stands⟩
  · have k := u.takeReturn_onlyLine j
    exact ⟨k.frame.modeNow.trans hu.mode, hu.stands.other k (Ne.symm hj)⟩

/-- Every line is settled, and nothing has been commanded or told since `r`. -/
structure AllSettled (r t : State) : Prop where
  mode : t.modeNow = .supervised
  settled : ∀ i, Settled t i
  ports : t.ports = r.ports

/-- Where every line is settled, the Dose Gate's report of the return commands and tells nothing. -/
theorem State.gateMode_quiet {t : State} (hm : t.modeNow = .supervised) (h : ∀ i, Settled t i) :
    (t.gateMode .fallback).ports = t.ports := by
  rw [t.gateMode_return hm, State.forLines]
  refine (List.foldlRecOn (motive := AllSettled t) _ State.takeReturn ⟨hm, h, rfl⟩ fun u hu j _ => ?_).ports
  have k := u.takeReturn_onlyLine j
  refine ⟨k.frame.modeNow.trans hu.mode, fun i => ?_, (State.takeReturn_ports hu.mode (hu.settled j)).trans hu.ports⟩
  have hi : Stands u i (u.gate.get i).source u := ⟨hu.settled i, rfl, rfl, rfl, rfl⟩
  by_cases hj : i = j
  · subst hj
    exact (State.takeReturn_stands hu.mode hi).settled
  · exact (hi.other k hj).settled

/-! ## The return -/

/-- The programmes cleared, the other blocks have nothing to do at the return but to arbitrate. -/
theorem State.changeMode_return (s : State) (hm : s.modeNow = .fallback) (l : Liveness) (cause : Cause) :
    s.changeMode (.supervised l) cause =
      (((s.modeEntered (.supervised l) cause).gateMode .fallback).programmesCleared).arbitrate := by
  have hmode : ((s.modeEntered (.supervised l) cause).gateMode .fallback).modeNow = .supervised :=
    ((s.modeEntered (.supervised l) cause).gateMode_wash .fallback).modeNow.trans
      (s.modeEntered_fields (.supervised l) cause).2.2.2.2.1
  rw [State.changeMode_eq, hm, State.runnerMode_plain _ (by rw [hmode]; exact nofun)]
  set t := ((s.modeEntered (.supervised l) cause).gateMode .fallback).programmesCleared with ht
  have hcleared : t.modeNow = .supervised := (State.programmesCleared_modeNow _).trans hmode
  have hreading : t.readingMode = t := by
    unfold State.readingMode
    rw [hcleared]
  have hseq : t.seqMode = t := by
    unfold State.seqMode
    rw [if_neg (by rw [hcleared]; decide)]
  rw [hreading, hseq, State.arbMode, if_neg (by decide)]

theorem State.changeMode_returns (s : State) (hm : s.modeNow = .fallback) (l : Liveness) (cause : Cause) :
    ((∀ i, Settled s i) → EndsNone s (s.changeMode (.supervised l) cause)) ∧
      ∀ i : LineIx, (s.changeMode (.supervised l) cause).runner.progs.get i = none ∧
        (Settled s i → Stands s i (s.gate.get i).source.returned (s.changeMode (.supervised l) cause)) := by
  rw [s.changeMode_return hm]
  have hentry := (s.modeEntered_notices (.supervised l) cause).2
  set t := s.modeEntered (.supervised l) cause with ht
  obtain ⟨hprogs, hends⟩ := (t.gateMode .fallback).programmesCleared.arbitrate_tells.unprogrammed
    (t.gateMode .fallback).programmesCleared_prog
  refine ⟨fun hall n hn hin => hentry n hn ?_, fun i => ⟨hprogs i, fun hi => ?_⟩⟩
  · have hentered i := s.modeEntered_stands hm l cause (hall i)
    have hports : (t.gateMode .fallback).ports = t.ports :=
      State.gateMode_quiet (hentered 0).mode fun i => (hentered i).stands.settled
    have hbefore := hends n hn hin
    rwa [State.programmesCleared_ports, hports] at hbefore
  · have hreturned := State.gateMode_returns (s.modeEntered_stands hm l cause hi)
    exact hreturned.stands.programmesCleared.arbitrate

/-! ## The REFRESH -/

/-- Settles O52: a REFRESH in SUPERVISED in time and early, the count of them in FALLBACK, the return, and the SET_FIELD
of the liveness period. -/
theorem refreshIsJudged : Obligations.RefreshIsJudged := by
  refine ⟨fun s tag l hready hm => ⟨fun hvalid => ?_, fun hlate hearly => ?_⟩,
    fun s tag f hready hm => ⟨fun hcount => ?_, fun hcount => ?_⟩, fun s tag v3 v2 v1 v0 hfree hm => ?_⟩
  · have halive : s.modeNow.alive = true := by rw [State.modeNow, hm]; rfl
    simp only [exec, execRefresh]
    rw [manage_noArgs hready _ _ halive, hm]
    dsimp only
    rw [State.refreshSupervised, if_neg (by rintro ⟨hlate, hearly⟩; rcases hvalid with h | h; simp [hlate] at h; omega)]
    rfl
  · have halive : s.modeNow.alive = true := by rw [State.modeNow, hm]; rfl
    refine ⟨s.enterFallback .early, ?_, s.enterFallback_mode .early⟩
    simp only [exec, execRefresh]
    rw [manage_noArgs hready _ _ halive, hm]
    dsimp only
    rw [State.refreshSupervised, if_pos ⟨hlate, hearly⟩]
    rfl
  · have halive : s.modeNow.alive = true := by rw [State.modeNow, hm]; rfl
    simp only [exec, execRefresh]
    rw [manage_noArgs hready _ _ halive, hm]
    dsimp only [State.refreshFallback]
    rw [if_neg (by omega)]
    rfl
  · have halive : s.modeNow.alive = true := by rw [State.modeNow, hm]; rfl
    have hfallback : s.modeNow = .fallback := by rw [State.modeNow, hm]; rfl
    have h := s.changeMode_frame (.supervised s.freshLiveness) .returned
    obtain ⟨hends, hlines⟩ := s.changeMode_returns hfallback s.freshLiveness .returned
    refine ⟨s.changeMode (.supervised s.freshLiveness) .returned, ?_, h.mode, h.retained.1, hends, fun i => ?_⟩
    · simp only [exec, execRefresh]
      rw [manage_noArgs hready _ _ halive, hm]
      dsimp only [State.refreshFallback]
      rw [if_pos (by omega), hcount]
      rfl
    · obtain ⟨hprog, hstands⟩ := hlines i
      refine ⟨hprog, fun hi => ?_⟩
      obtain ⟨-, hstate, hrequested, hadmitted, hsource⟩ := hstands hi
      exact ⟨hstate, hrequested, hadmitted, hsource⟩
  · refine ⟨s.enterFallback .configBreach, ?_, s.enterFallback_mode .configBreach,
      (s.enterFallback_records .configBreach).tables⟩
    simp only [exec, execSetField]
    rw [if_pos ⟨hm, rfl⟩, State.configBreach, if_neg (show ¬ Config.responsePlaces ≤ _ from Nat.not_le.2 hfree)]
    rfl

end Sys2Proof.Machine
end

section
/-!
PROOFS. The plant stop input and the keyswitch (R55, R68, R120, R124, R152): every line that takes PLANT_STOP asks for
nothing, its pump sent 0, and stays so through the abort; on the release each line follows the causes left to it.
-/

namespace Sys2Proof.Machine

open Sys2Proof.Safety Sys2Proof.Claims

/-! ## The input told to the lines (R68) -/

/-- The state with the plant stop input at `on`. -/
def State.withPlantStop (s : State) (on : Bool) : State := { s with pins := { s.pins with plantStop := on } }

/-- Line `i` is told of the plant stop input. -/
def State.tellStop (on : Bool) (s : State) (i : LineIx) : State :=
  s.applyCauses i { (s.gate.get i).causes with plantStop := on }

theorem State.gatePlantStop_eq (s : State) (on : Bool) :
    s.gatePlantStop on = (s.withPlantStop on).refreshPermits.forLines (State.tellStop on) := rfl

theorem State.tellStop_onlyLine (on : Bool) (s : State) (i : LineIx) : OnlyLine i s (s.tellStop on i) :=
  s.applyCauses_onlyLine i _

/-- The report works on the lines alone. -/
theorem State.gatePlantStop_works (s : State) (on : Bool) :
    Works linesOnly (s.withPlantStop on) (s.gatePlantStop on) := by
  rw [s.gatePlantStop_eq]
  exact ((s.withPlantStop on).refreshPermits_works linesOnly).trans
    (Works.foldl _ _ fun t _ i _ => t.applyCauses_works (i := i) trivial _)

/-- A command waits where the own queues and the segments' states stand. -/
theorem offers_of_own {s t u : State} {k : Option (Fin 48)} {v room : Nat} (h : Offers s t k v room)
    (hown : ∀ g, (u.ports.segments.get g).own = (t.ports.segments.get g).own)
    (hstate : ∀ g, u.segState g = t.segState g) : Offers s u k v room := by
  intro hT q e g he hseg hup
  rw [hstate] at hup
  dsimp only
  rw [hown]
  exact h hT q e g he hseg hup

/-- From `r` to `t` line `i` has taken PLANT_STOP: it asks for nothing, and its pump is sent 0 if it had a rate (R61). -/
structure Stopped (r : State) (i : LineIx) (t : State) : Prop where
  worked : Worked r t
  cause : (t.gate.get i).causes.plantStop = true
  asks : AsksNothing t i
  state : (t.gate.get i).state = if (r.gate.get i).state = .faulted then .faulted else .inhibited
  sent : (r.gate.get i).admitted ≠ 0 → Offers r t (r.lineEntry i) 0 21

theorem Causes.any_of_plantStop {c : Causes} (h : c.plantStop = true) : c.any = true := by
  simp [Causes.any, h]

section
variable {r t : State} {i : LineIx}

theorem Stopped.beside {u : State} (k : Beside t u) (h : Stopped r i t) : Stopped r i u := by
  have hline := k.works.line i id
  refine ⟨h.worked.trans k.works.worked, by rw [hline]; exact h.cause, ?_, by rw [hline]; exact h.state,
    fun hne => k.works.offers_later (x := .line i) h.worked.tables (h.sent hne) id⟩
  rw [AsksNothing, hline, k.progs]
  exact h.asks

theorem Stopped.other {j : LineIx} (h : Stopped r i t) (hj : j ≠ i) (new : Causes) :
    Stopped r i (t.applyCauses j new) := by
  have hworks := t.applyCauses_works (i := j) (K := (· = .line j)) rfl new
  have hline := hworks.line i (PlantObject.line_ne hj)
  exact ⟨h.worked.trans hworks.worked, by rw [hline]; exact h.cause, State.applyCauses_asksNothing h.asks j new,
    by rw [hline]; exact h.state,
    fun hne => hworks.offers_later (x := .line i) h.worked.tables (h.sent hne) (PlantObject.line_ne hj)⟩

/-- Told again while PLANT_STOP stands, the line commands nothing. -/
theorem Stopped.told (h : Stopped r i t) {new : Causes} (hnew : new.plantStop = true) :
    Stopped r i (t.applyCauses i new) := by
  have hd : (t.gate.get i).state ≠ .disabled := by rw [h.state]; split <;> exact nofun
  have hstate := (t.applyCauses_under i new hd (Causes.any_of_plantStop hnew)).1
  have hnone := (t.applyCauses_resting i new hd h.asks.2.1 h.asks.2.2.2).1
  refine ⟨h.worked.trans (t.applyCauses_works trivial new), by rw [(t.applyCauses_causes i new hd).1]; exact hnew,
    State.applyCauses_asksNothing h.asks i new, ?_, fun hne => ?_⟩
  · rw [hstate, h.state]
    by_cases hf : (r.gate.get i).state = .faulted <;> simp [hf]
  · exact offers_of_own (h.sent hne) hnone (t.applyCauses_gate i new).segState

/-- A line that is told of PLANT_STOP for the first time stops (R61, R68). -/
theorem State.tellStop_stopped (h : Worked r t) (hline : t.gate.get i = r.gate.get i)
    (hd : (r.gate.get i).state ≠ .disabled) (hc : (r.gate.get i).causes.plantStop = false) :
    Stopped r i (t.tellStop true i) := by
  have hnew : ({ (t.gate.get i).causes with plantStop := true } : Causes).any = true :=
    Causes.any_of_plantStop rfl
  have hlatched : (t.gate.get i).causes.latchedNew { (t.gate.get i).causes with plantStop := true } = true := by
    simp [Causes.latchedNew, hline, hc]
  have hclears : (t.gate.get i).causes.clearedBy { (t.gate.get i).causes with plantStop := true } ≠ none := by
    simp [Causes.clearedBy, hline, hc]
  rw [← hline] at hd
  obtain ⟨hstate, hadmitted, hsent, hends⟩ := t.applyCauses_under i _ hd hnew
  obtain ⟨hcauses, -, hrequested, -, hsource, -, -⟩ := t.applyCauses_withdrawn i _ hd (.inr hlatched)
  rw [if_pos hlatched] at hsource
  refine ⟨h.trans (t.applyCauses_works trivial _), ?_, ⟨hends hclears, hrequested, hsource, hadmitted⟩, ?_,
    fun hne => ?_⟩
  · rw [State.tellStop, hcauses]
  · rw [State.tellStop, hstate, hline]
  · rw [← hline] at hne
    refine offers_of_own (h.offers (.line i) 0) (fun g => (hsent hne g).trans (t.originate_own _ _ g).symm)
      fun g => ?_
    rw [(t.originate_gate _ _).segState]
    exact (t.applyCauses_gate i _).segState g

/-- The report of the assertion stops each line that did not hold PLANT_STOP. -/
theorem State.gatePlantStop_stops (s : State) (hd : (s.gate.get i).state ≠ .disabled)
    (hc : (s.gate.get i).causes.plantStop = false) :
    Stopped (s.withPlantStop true) i (s.gatePlantStop true) := by
  have hfresh := (s.withPlantStop true).refreshPermits_works fun _ => True
  rw [s.gatePlantStop_eq, State.forLines]
  refine foldl_at (P := fun t => Worked (s.withPlantStop true) t ∧ t.gate.get i = s.gate.get i)
    (Q := Stopped (s.withPlantStop true) i) (List.mem_finRange i) (List.nodup_finRange 12) (fun t j hj ht => ?_)
    (fun t ht => State.tellStop_stopped ht.1 ht.2 hd hc) (fun t j hj ht => ht.other hj _) ⟨hfresh, rfl⟩
  exact ⟨ht.1.trans (t.applyCauses_works trivial _), ((t.tellStop_onlyLine true j).others i (Ne.symm hj)).1.trans ht.2⟩

/-- While the input is asserted no permit is on (R55). -/
theorem State.gatePlantStop_barred (s : State) : Barred (s.gatePlantStop true) := by
  rw [s.gatePlantStop_eq]
  refine List.foldlRecOn (motive := Barred) _ _ ⟨.inl rfl, fun i => ?_⟩ fun t ht i _ =>
    State.applyCauses_barred ht i _
  have hpermits : (s.withPlantStop true).refreshPermits.pins.permits = .ofFn (s.withPlantStop true).permitDue := rfl
  rw [hpermits, Table.get_ofFn]
  exact State.permitDue_barred (.inl rfl) i

end

/-! ## The aborts (R124) -/

/-- Each filter in turn takes the abort. -/
def State.abortAll (s : State) (c : AbortCause) : State := s.forFilters fun t f => t.abort f c

section
variable {s : State} {f : FilterIx}

/-- One filter alone is in BACKWASH. -/
theorem GrantOk.alone (h : GrantOk s) {b : Backwash} (hb : s.backwashOf f = some b) (g : FilterIx) (hg : g ≠ f) :
    s.backwashOf g = none := by
  have hbusy : s.arbiter.busy = some f := (h f).1 (by rw [hb]; rfl)
  by_contra hne
  have hother := (h g).1 (Option.isSome_iff_ne_none.2 hne)
  rw [hbusy] at hother
  exact hg (Option.some.inj hother).symm

/-- Where one filter alone is in BACKWASH, it alone takes the abort. -/
theorem State.abortAll_one (c : AbortCause) (h : ∀ g, g ≠ f → s.backwashOf g = none) :
    s.abortAll c = s.abort f c := by
  unfold State.abortAll State.forFilters
  refine foldl_at (P := fun t => t = s) (Q := fun t => t = s.abort f c) (List.mem_finRange f)
    (List.nodup_finRange 8) (fun t g hg ht => ?_) (fun t ht => by rw [ht]) (fun t g hg ht => ?_) rfl
  · rw [ht, s.abort_none c (h g hg)]
  · rw [ht]
    exact State.abort_none _ c (by rw [s.abort_others c hg, h g hg])

theorem State.abortAll_keeps {P : State → Prop} (beside : ∀ {t u : State}, Beside t u → P t → P u)
    (told : ∀ (t : State) (i : LineIx), P t →
      P (t.applyCauses i { (t.gate.get i).causes with backwash := t.backwashCause i }))
    (c : AbortCause) (h : P s) : P (s.abortAll c) :=
  List.foldlRecOn (motive := P) _ _ h fun _ ht f _ => State.abort_keeps beside told ht f c

theorem State.abortAll_tells (s : State) (c : AbortCause) : Tells s (s.abortAll c) :=
  Tells.foldl (fun t f => t.abort_tells f c) _ s

/-- A stopped line stays so through the aborts. -/
theorem Stopped.abortAll {r : State} {i : LineIx} (h : Stopped r i s) (c : AbortCause) :
    Stopped r i (s.abortAll c) := by
  refine State.abortAll_keeps (P := Stopped r i) Stopped.beside (fun t j ht => ?_) c h
  by_cases hj : j = i
  · subst hj
    exact ht.told ht.cause
  · exact ht.other hj _

/-- The aborts leave the mode, its record and the plant stop input, and do not set PB. -/
structure StopKept (s t : State) : Prop where
  mode : t.mode = s.mode
  plantStop : t.pins.plantStop = s.pins.plantStop
  pb : s.pins.pb = false → t.pins.pb = false

theorem State.abortAll_kept (s : State) (c : AbortCause) : StopKept s (s.abortAll c) := by
  refine State.abortAll_keeps (P := StopKept s) (fun {t u} k ht => ?_) (fun t i ht => ?_) c ⟨rfl, rfl, id⟩
  · exact ⟨k.mode.trans ht.mode, k.works.plantStop.trans ht.plantStop, k.pb ∘ ht.pb⟩
  · have hgate := t.applyCauses_gate i { (t.gate.get i).causes with backwash := t.backwashCause i }
    exact ⟨hgate.mode.trans ht.mode, hgate.plantStop.trans ht.plantStop, fun hp => hgate.pb.trans (ht.pb hp)⟩

/-- An abort by another than the supervisor takes a backwash that the supervisor sent to RINSE on to RETURN (R125). -/
theorem State.abort_rinsing {r : State} (h : Works linesOnly r s) {b : Backwash} {at' : Stage} {c : AbortCause}
    (hb : s.backwashOf f = some b) (hstage : b.stage = .rinse) (habort : b.abort = some (.supervisorAbort, at'))
    (hc : c ≠ .supervisorAbort) :
    (s.abort f c).backwashOf f = some { b with
        stage := .return, step := .move .valves 1 (r.tables.filters.get f).travelLimit } ∧
      Offers r (s.abort f c) (r.valveEntry f) 1 21 := by
  have heq : s.abort f c = s.pumpStopped.enterStage f b .return := by
    unfold State.abort
    rw [hb]
    dsimp only
    rw [if_neg (by rw [hstage]; exact nofun), habort]
    dsimp only
    rw [if_pos ⟨rfl, hc, hstage⟩]
    rfl
  have hsame : b = { b with abort := some (.supervisorAbort, at') } := by rw [← habort]
  rw [heq, hsame, State.enterReturn_eq]
  obtain ⟨t, ht⟩ : ∃ t, t = if b.wetted = true ∧ b.rinsed = false
    then s.pumpStopped.unrinsedNotice f AbortCause.supervisorAbort.cause at' else s.pumpStopped := ⟨_, rfl⟩
  have hworked : Worked r t := by
    have hstopped : Worked r s.pumpStopped := h.worked.trans (s.pumpStopped_works trivial)
    rw [ht]
    split
    · exact hstopped.trans (State.unrinsedNotice_works trivial _ _ _)
    · exact hstopped
  rw [← ht, (t.beginMove_valves f _ 1).1, hworked.tables]
  exact ⟨rfl, State.beginMove_offers hworked f _ 1⟩

/-- While the plant stop input is asserted no filter is eligible (R105). -/
theorem State.arbitrate_stopped (h : s.pins.plantStop = true) : s.arbitrate = s :=
  s.arbitrate_idle fun f => by simp [State.eligible, State.conditions, h]

end

/-! ## The release -/

section
variable {r t : State} {i : LineIx}

/-- A line that has settled stays so when it is told of its causes as they are. -/
theorem Resettled.again (h : Resettled r t i) (hn : (r.gate.get i).state ≠ .disabled) {new : Causes}
    (hnew : new = (t.gate.get i).causes) : Resettled r (t.applyCauses i new) i := by
  subst hnew
  by_cases hd : (t.gate.get i).state = .disabled
  · rwa [t.applyCauses_disabled i _ hd]
  · obtain ⟨htaken, hpermit⟩ := t.applyCauses_causes i _ hd
    refine ⟨h.worked.trans (t.applyCauses_works trivial _), hpermit, fun ha => ?_⟩
    rw [htaken] at ha
    exact State.applyCauses_again (h.settles ha) h.worked.tables hn (Causes.latchedNew_self _) rfl

/-- From `r` to `t` line `i` has settled, and holds BACKWASH as the stages give it (R66). -/
structure ResettledWash (r : State) (i : LineIx) (t : State) : Prop where
  resettled : Resettled r t i
  backwash : (t.gate.get i).causes.backwash = t.backwashCause i

theorem ResettledWash.other (h : ResettledWash r i t) {j : LineIx} (hj : j ≠ i) (new : Causes) :
    ResettledWash r i (t.applyCauses j new) := by
  have hworks := t.applyCauses_works (i := j) (K := (· = .line j)) rfl new
  have hne := PlantObject.line_ne hj
  exact ⟨h.resettled.later hworks hne, by
    rw [hworks.line i hne, t.applyCauses_backwashCause]; exact h.backwash⟩

/-- An arbitration leaves a line that has settled. -/
theorem ResettledWash.arbitrate (h : ResettledWash r i t) (hn : (r.gate.get i).state ≠ .disabled) :
    ResettledWash r i t.arbitrate := by
  refine State.arbitrate_keeps (P := ResettledWash r i) (fun k hb hu => ?_) (fun u j hu => ?_) h
  · exact ⟨hu.resettled.later k.works id, by rw [k.works.line i id, hb]; exact hu.backwash⟩
  · by_cases hj : j = i
    · subst hj
      have hnew : { (u.gate.get j).causes with backwash := u.backwashCause j } = (u.gate.get j).causes := by
        rw [← hu.backwash]
      have hagain := hu.resettled.again hn hnew
      refine ⟨hagain, ?_⟩
      rw [u.applyCauses_backwashCause, hnew]
      by_cases hd : (u.gate.get j).state = .disabled
      · rw [u.applyCauses_disabled j _ hd]; exact hu.backwash
      · rw [(u.applyCauses_causes j _ hd).1]; exact hu.backwash
    · exact hu.other hj _

/-- What the report of the release makes of a line (R62). -/
structure StopLifted (r : State) (i : LineIx) (t : State) : Prop where
  causes : (t.gate.get i).causes = { (r.gate.get i).causes with plantStop := false }
  resettled : Resettled r t i

theorem State.gatePlantStop_lifts (s : State) (hd : (s.gate.get i).state ≠ .disabled) :
    StopLifted (s.withPlantStop false) i (s.gatePlantStop false) := by
  have hfresh := (s.withPlantStop false).refreshPermits_works fun _ => True
  rw [s.gatePlantStop_eq, State.forLines]
  refine foldl_at (P := fun t => Worked (s.withPlantStop false) t ∧ t.gate.get i = s.gate.get i)
    (Q := StopLifted (s.withPlantStop false) i) (List.mem_finRange i) (List.nodup_finRange 12) (fun t j hj ht => ?_)
    (fun t ht => ?_) (fun t j hj ht => ?_) ⟨hfresh, rfl⟩
  · exact ⟨ht.1.trans (t.applyCauses_works trivial _),
      ((t.tellStop_onlyLine false j).others i (Ne.symm hj)).1.trans ht.2⟩
  · obtain ⟨hworked, hline⟩ := ht
    obtain ⟨hcauses, hsettled⟩ := State.applyCauses_resettled (r := s.withPlantStop false)
      (new := { (s.gate.get i).causes with plantStop := false }) hworked hline hd
      (by simp [Causes.latchedNew, State.withPlantStop])
    rw [State.tellStop, hline]
    exact ⟨hcauses, hsettled⟩
  · have hworks := t.applyCauses_works (i := j) (K := (· = .line j)) rfl
      { (t.gate.get j).causes with plantStop := false }
    have hne := PlantObject.line_ne hj
    exact ⟨(congrArg Line.causes (hworks.line i hne)).trans ht.causes, ht.resettled.later hworks hne⟩

end

/-! ## What rests on no pin -/

section
variable {s t : State} {p : Pins}

theorem offers_withPins {k : Option (Fin 48)} {v room : Nat} (h : Offers { s with pins := p } t k v room) :
    Offers s t k v room := h

theorem abortsToReturn_withPins {f : FilterIx} {b : Backwash} {c : AbortCause} {room : Nat}
    (h : AbortsToReturn { s with pins := p } t f b c room) : AbortsToReturn s t f b c room := h

theorem lineFollows_withPins {i : LineIx} (h : LineFollows { s with pins := p } t i) : LineFollows s t i := h

end

/-! ## The assertion -/

/-- The pins with the plant stop input asserted and PB off. -/
def Pins.stopped (p : Pins) : Pins := { p with plantStop := true, pb := false }

/-- PB is off, and the lines have taken the assertion. -/
def State.linesStopped (s : State) : State := (s.setPb false).gatePlantStop true

/-- Every backwash has taken the abort. -/
def State.plantStopped (s : State) : State := s.linesStopped.abortAll .plantStop

section
variable (s : State)

theorem State.linesStopped_works : Works linesOnly { s with pins := s.pins.stopped } s.linesStopped :=
  State.gatePlantStop_works (s.setPb false) true

theorem State.linesStopped_gate : GateFrame { s with pins := s.pins.stopped } s.linesStopped :=
  State.gatePlantStop_gate (s.setPb false) true

theorem State.linesStopped_stops {i : LineIx} (hd : (s.gate.get i).state ≠ .disabled)
    (hc : (s.gate.get i).causes.plantStop = false) :
    Stopped { s with pins := s.pins.stopped } i s.linesStopped :=
  State.gatePlantStop_stops (s.setPb false) hd hc

/-- The inputs and the mode after the assertion. -/
theorem State.plantStopped_pins : s.plantStopped.pins.plantStop = true ∧ s.plantStopped.pins.pb = false ∧
    (∀ i : LineIx, s.plantStopped.pins.permits.get i = false) ∧ s.plantStopped.mode = s.mode := by
  have hkept := s.linesStopped.abortAll_kept .plantStop
  have hgate := s.linesStopped_gate
  have hbarred : Barred s.linesStopped := State.gatePlantStop_barred _
  have hoff := ((s.linesStopped.abortAll_tells .plantStop).barred hbarred).off
  unfold State.plantStopped
  exact ⟨by rw [hkept.plantStop, hgate.plantStop]; rfl, hkept.pb (by rw [hgate.pb]; rfl), hoff,
    by rw [hkept.mode, hgate.mode]⟩

theorem State.exec_plantStopAsserted (h : s.pins.plantStop = false) :
    exec .plantStopAsserted s = .next s.plantStopped := by
  have hidle : s.plantStopped.arbitrate = s.plantStopped := State.arbitrate_stopped s.plantStopped_pins.1
  simp only [exec, execPlantStopAsserted]
  rw [if_neg (by rw [h]; decide)]
  exact congrArg Host.Outcome.next hidle

/-- A line that did not hold PLANT_STOP after the assertion (R61, R68). -/
theorem State.plantStopped_line {i : LineIx} (hd : (s.gate.get i).state ≠ .disabled)
    (hc : (s.gate.get i).causes.plantStop = false) :
    (s.plantStopped.gate.get i).causes.plantStop = true ∧ AsksNothing s.plantStopped i ∧
      (s.plantStopped.gate.get i).state = (if (s.gate.get i).state = .faulted then .faulted else .inhibited) ∧
      ((s.gate.get i).admitted ≠ 0 → Offers s s.plantStopped (s.lineEntry i) 0 21) := by
  have h : Stopped { s with pins := s.pins.stopped } i s.plantStopped :=
    (s.linesStopped_stops hd hc).abortAll .plantStop
  exact ⟨h.cause, h.asks, h.state, fun hne => offers_withPins (h.sent hne)⟩

/-- The filter in BACKWASH after the assertion (R124, R125). -/
theorem State.plantStopped_filter {f : FilterIx} {b : Backwash} (hwash : GrantOk s) (hb : s.backwashOf f = some b) :
    (b.stage = .return → s.plantStopped.backwashOf f = some b) ∧
      (b.stage ≠ .return → b.abort = none → AbortsToReturn s s.plantStopped f b .plantStop 21) ∧
      ∀ at', b.stage = .rinse → b.abort = some (.supervisorAbort, at') →
        s.plantStopped.backwashOf f = some { b with
          stage := .return, step := .move .valves 1 (s.tables.filters.get f).travelLimit } ∧
        Offers s s.plantStopped (s.valveEntry f) 1 21 := by
  have hworks := s.linesStopped_works
  have hbefore (g : FilterIx) : s.linesStopped.backwashOf g = s.backwashOf g := hworks.backwashOf g id
  have hbf := (hbefore f).trans hb
  have hone : s.plantStopped = s.linesStopped.abort f .plantStop :=
    State.abortAll_one .plantStop fun g hg => (hbefore g).trans (GrantOk.alone hwash hb g hg)
  rw [hone]
  refine ⟨fun hstage => ?_, fun hstage habort => ?_, fun at' hstage habort => ?_⟩
  · rw [s.linesStopped.abort_return .plantStop hbf hstage, hbf]
  · exact abortsToReturn_withPins (State.abort_returns hworks hbf hstage habort nofun nofun)
  · obtain ⟨hmoved, hsent⟩ := State.abort_rinsing hworks hbf hstage habort (c := .plantStop) nofun
    exact ⟨hmoved, offers_withPins hsent⟩

end

/-! ## The release, arbitrated -/

section
variable (s : State)

/-- The inputs and the mode after the release. -/
theorem State.plantReleased_pins : (s.gatePlantStop false).arbitrate.pins.plantStop = false ∧
    (s.gatePlantStop false).arbitrate.pins.pb = s.pins.pb ∧ (s.gatePlantStop false).arbitrate.mode = s.mode := by
  have hgate : GateFrame (s.withPlantStop false) (s.gatePlantStop false) := s.gatePlantStop_gate false
  have hworks : Works (· ≠ .pump) (s.gatePlantStop false) (s.gatePlantStop false).arbitrate :=
    State.arbitrate_works _ fun f x hx e => by subst e; exact hx
  have hmode : (s.gatePlantStop false).arbitrate.mode = s.mode :=
    State.arbitrate_keeps (P := fun t => t.mode = s.mode) (fun k _ ht => k.mode.trans ht)
      (fun t i ht => (t.applyCauses_gate i _).mode.trans ht) hgate.mode
  exact ⟨by rw [hworks.plantStop, hgate.plantStop]; rfl, by rw [(hworks.pump fun h => h rfl).1, hgate.pb]; rfl,
    hmode⟩

/-- A line after the release (R62). -/
theorem State.plantReleased_line {i : LineIx} (hd : (s.gate.get i).state ≠ .disabled) :
    ((s.gatePlantStop false).arbitrate.gate.get i).causes.plantStop = false ∧
      ((s.gate.get i).causes.backwash = s.backwashCause i → LineFollows s (s.gatePlantStop false).arbitrate i) := by
  have hlifted := s.gatePlantStop_lifts hd
  have hgate : GateFrame (s.withPlantStop false) (s.gatePlantStop false) := s.gatePlantStop_gate false
  obtain ⟨limit, backwash, hcauses⟩ := (s.gatePlantStop false).arbitrate_tells.causes i
  refine ⟨by rw [hcauses, hlifted.causes], fun hb => ?_⟩
  have hwash : ResettledWash (s.withPlantStop false) i (s.gatePlantStop false) :=
    ⟨hlifted.resettled, by rw [hlifted.causes, hgate.backwashCause]; exact hb⟩
  have hfollows : LineFollows (s.withPlantStop false) (s.gatePlantStop false).arbitrate i :=
    (hwash.arbitrate hd).resettled.lineFollows hd
  exact lineFollows_withPins hfollows

end

/-! ## The inputs -/

/-- Settles O60: the assertion, the release, the repeated edges, and the keyswitch. -/
theorem hardwiredInputsAct : Obligations.HardwiredInputsAct := by
  refine ⟨fun s hoff _ hwash => ?_, fun s hon => ?_, fun s hon => ?_, fun s hoff => ?_, fun s on => rfl⟩
  · obtain ⟨hstop, hpb, hpermits, hmode⟩ := s.plantStopped_pins
    exact ⟨s.plantStopped, s.exec_plantStopAsserted hoff, hstop, hpb, hpermits,
      fun i hd hc => s.plantStopped_line hd hc, fun f b hb => s.plantStopped_filter hwash.1 hb, hmode⟩
  · obtain ⟨hstop, hpb, hmode⟩ := s.plantReleased_pins
    refine ⟨(s.gatePlantStop false).arbitrate, ?_, hstop, hpb, fun i hd => s.plantReleased_line hd, hmode⟩
    simp only [exec, execPlantStopReleased]
    rw [if_pos hon]
  · simp only [exec, execPlantStopAsserted]
    rw [if_pos hon]
  · simp only [exec, execPlantStopReleased]
    rw [if_neg (by rw [hoff]; decide)]

end Sys2Proof.Machine
end

section
/-!
PROOFS. The fields of the working tables (R162): a value put into a record reads back as the value; an accepted write leaves
the record in its table; a refused one changes nothing.
-/

namespace Sys2Proof.Machine

open Sys2Proof.Safety Sys2Proof.Claims

/-! ## Codes read back (10 section 10.7) -/

theorem boolCode_of_boolOf {v : Nat} {b : Bool} (h : boolOf v = some b) : boolCode b = v := by
  match v, h with
  | 0, h => obtain rfl := Option.some.inj h; rfl
  | 1, h => obtain rfl := Option.some.inj h; rfl

theorem within_eq {lo hi v w : Nat} (h : within lo hi v = some w) : w = v ∧ lo ≤ v ∧ v ≤ hi := by
  unfold within at h
  split at h
  · exact ⟨(Option.some.inj h).symm, by assumption⟩
  · contradiction

theorem ixCode_of_ixFrom {n v : Nat} {i : Fin n} (h : ixFrom 1 n v = some i) : ixCode i = v := by
  unfold ixFrom at h
  split at h
  · rename_i hv
    obtain rfl := Option.some.inj h
    exact Nat.sub_add_cancel hv.1
  · contradiction

theorem optCode_of_optWithin {lo hi v : Nat} {o : Option Nat} (h : optWithin lo hi v = some o) : optCode o = v := by
  unfold optWithin at h
  split at h
  · rename_i hv
    obtain rfl := Option.some.inj h
    exact hv.symm
  · obtain ⟨w, hw, rfl⟩ := Option.map_eq_some_iff.1 h
    exact (within_eq hw).1

theorem optCode_of_optIx {n v : Nat} {o : Option (Fin n)} (h : optIx n v = some o) : optCode (o.map ixCode) = v := by
  unfold optIx at h
  split at h
  · rename_i hv
    obtain rfl := Option.some.inj h
    exact hv.symm
  · obtain ⟨i, hi, rfl⟩ := Option.map_eq_some_iff.1 h
    exact ixCode_of_ixFrom hi

theorem lineKindCode_of_ofCode {v : Nat} {k : LineKind} (h : LineKind.ofCode v = some k) : k.code = v := by
  match v, h with
  | 0, h | 1, h | 2, h => obtain rfl := Option.some.inj h; rfl

theorem stepKindCode_of_ofCode {v : Nat} {k : StepKind} (h : StepKind.ofCode v = some k) : k.code = v := by
  match v, h with
  | 0, h | 1, h => obtain rfl := Option.some.inj h; rfl

theorem entryKindCode_of_ofCode {v : Nat} {k : EntryKind} (h : EntryKind.ofCode v = some k) : k.code = v := by
  match v, h with
  | 0, h | 1, h => obtain rfl := Option.some.inj h; rfl

theorem objKindCode_of_ofCode {v : Nat} {k : ObjKind} (h : ObjKind.ofCode v = some k) : k.code = v := by
  match v, h with
  | 0, h | 1, h | 2, h | 3, h | 4, h | 5, h => obtain rfl := Option.some.inj h; rfl

theorem policyCode_of_ofCode {v : Nat} {k : Policy} (h : Policy.ofCode v = some k) : k.code = v := by
  match v, h with
  | 0, h | 1, h => obtain rfl := Option.some.inj h; rfl

/-! ## Records read back (R162) -/

/-- A field whose value is decoded into the record reads back as what the value decodes to. -/
theorem read_of_map {α β : Type} {o : Option α} {mk : α → β} {r : β} {read : β → Nat} {v : Nat}
    (h : o.map mk = some r) (hread : ∀ a, o = some a → read (mk a) = v) : read r = v := by
  obtain ⟨a, ha, rfl⟩ := Option.map_eq_some_iff.1 h
  exact hread a ha

/-- A number within its range reads back as the value. -/
theorem read_of_within {β : Type} {lo hi : Nat} {mk : Nat → β} {r : β} {read : β → Nat} {v : Nat}
    (h : (within lo hi v).map mk = some r) (hread : ∀ w, read (mk w) = w) : read r = v :=
  read_of_map h fun w hw => (hread w).trans (within_eq hw).1

theorem AdmissionEntry.field_of_put {e r : AdmissionEntry} {n : Fin 5} {v : Nat} (h : e.put n v = some r) :
    r.field n = v := by
  match n, h with
  | 0, h => exact read_of_map (read := (·.field 0)) h fun _ => boolCode_of_boolOf
  | 1, h => exact read_of_within (read := (·.field 1)) h fun _ => rfl
  | 2, h => exact read_of_within (read := (·.field 2)) h fun _ => rfl
  | 3, h => exact read_of_map (read := (·.field 3)) h fun _ => objKindCode_of_ofCode
  | 4, h => exact read_of_within (read := (·.field 4)) h fun _ => rfl

theorem MapEntry.field_of_put {e r : MapEntry} {n : Fin 4} {v : Nat} (h : e.put n v = some r) : r.field n = v := by
  match n, h with
  | 0, h => exact read_of_map (read := (·.field 0)) h fun _ => boolCode_of_boolOf
  | 1, h => exact read_of_within (read := (·.field 1)) h fun _ => rfl
  | 2, h => exact read_of_within (read := (·.field 2)) h fun _ => rfl
  | 3, h => exact read_of_within (read := (·.field 3)) h fun _ => rfl

theorem SlotSetting.field_of_put {c r : SlotSetting} {top : Nat} {n : Fin 3} {v : Nat}
    (h : c.put top n v = some r) : r.field n = v := by
  match n, h with
  | 0, h => exact read_of_within (read := (·.field 0)) h fun _ => rfl
  | 1, h => exact read_of_within (read := (·.field 1)) h fun _ => rfl
  | 2, h => exact read_of_within (read := (·.field 2)) h fun _ => rfl

theorem CircuitCfg.field_of_put {c r : CircuitCfg} {n : Fin 5} {v : Nat} (h : c.put n v = some r) :
    r.field n = v := by
  match n, h with
  | 0, h => exact read_of_map (read := (·.field 0)) h fun _ => boolCode_of_boolOf
  | 1, h => exact read_of_within (read := (·.field 1)) h fun _ => rfl
  | 2, h => exact read_of_within (read := (·.field 2)) h fun _ => rfl
  | 3, h => exact read_of_within (read := (·.field 3)) h fun _ => rfl
  | 4, h => exact read_of_within (read := (·.field 4)) h fun _ => rfl

theorem LineCfg.field_of_put {c r : LineCfg} {n : Fin 15} {v : Nat} (h : c.put n v = some r) : r.field n = v := by
  match n, h with
  | 0, h => exact read_of_map (read := (·.field 0)) h fun _ => boolCode_of_boolOf
  | 1, h => exact read_of_map (read := (·.field 1)) h fun _ => lineKindCode_of_ofCode
  | 2, h => exact read_of_map (read := (·.field 2)) h fun _ => ixCode_of_ixFrom
  | 3, h => exact read_of_within (read := (·.field 3)) h fun _ => rfl
  | 4, h => exact read_of_within (read := (·.field 4)) h fun _ => rfl
  | 5, h => exact read_of_within (read := (·.field 5)) h fun _ => rfl
  | 6, h => exact read_of_within (read := (·.field 6)) h fun _ => rfl
  | 7, h => exact read_of_within (read := (·.field 7)) h fun _ => rfl
  | 8, h => exact read_of_within (read := (·.field 8)) h fun _ => rfl
  | 9, h => exact read_of_within (read := (·.field 9)) h fun _ => rfl
  | 10, h => exact read_of_within (read := (·.field 10)) h fun _ => rfl
  | 11, h => exact read_of_map (read := (·.field 11)) h fun _ => optCode_of_optWithin
  | 12, h => exact read_of_within (read := (·.field 12)) h fun _ => rfl
  | 13, h => exact read_of_map (read := (·.field 13)) h fun _ => optCode_of_optWithin
  | 14, h => exact read_of_within (read := (·.field 14)) h fun _ => rfl

theorem FilterCfg.field_of_put {c r : FilterCfg} {n : Fin 12} {v : Nat} (h : c.put n v = some r) :
    r.field n = v := by
  match n, h with
  | 0, h => exact read_of_map (read := (·.field 0)) h fun _ => boolCode_of_boolOf
  | 1, h => exact read_of_map (read := (·.field 1)) h fun _ => ixCode_of_ixFrom
  | 2, h => exact read_of_within (read := (·.field 2)) h fun _ => rfl
  | 3, h => exact read_of_within (read := (·.field 3)) h fun _ => rfl
  | 4, h => exact read_of_within (read := (·.field 4)) h fun _ => rfl
  | 5, h => exact read_of_within (read := (·.field 5)) h fun _ => rfl
  | 6, h => exact read_of_within (read := (·.field 6)) h fun _ => rfl
  | 7, h => exact read_of_within (read := (·.field 7)) h fun _ => rfl
  | 8, h => exact read_of_within (read := (·.field 8)) h fun _ => rfl
  | 9, h => exact read_of_within (read := (·.field 9)) h fun _ => rfl
  | 10, h => exact read_of_within (read := (·.field 10)) h fun _ => rfl
  | 11, h => exact read_of_within (read := (·.field 11)) h fun _ => rfl

/-- The volume of a step that is absent reads as none, and can only stay so (R78). -/
theorem StepRec.field_of_put {c r : StepRec} {n : Fin 5} {v : Nat} (h : c.put n v = some r) : r.field n = v := by
  match n, h with
  | 0, h => exact read_of_map (read := (·.field 0)) h fun _ => stepKindCode_of_ofCode
  | 1, h => exact read_of_within (read := (·.field 1)) h fun _ => rfl
  | 2, h => exact read_of_within (read := (·.field 2)) h fun _ => rfl
  | 3, h =>
    simp only [StepRec.put] at h
    split at h
    · rename_i hv
      split at h
      · rename_i hnone
        obtain rfl := Option.some.inj h
        rw [StepRec.field, Option.isNone_iff_eq_none.1 hnone, hv]
        rfl
      · contradiction
    · exact read_of_within (read := (·.field 3)) h fun _ => rfl
  | 4, h => exact read_of_map (read := (·.field 4)) h fun _ => boolCode_of_boolOf

/-- A set of days or circuits reads back as its mask (R157). -/
theorem TimeEntry.field_of_put {c r : TimeEntry} {n : Fin 6} {v : Nat} (h : c.put n v = some r) :
    r.field n = v := by
  have hmask (w hi : Nat) {m : Nat} (hm : within 0 hi v = some m) (hw : hi < 2 ^ w) :
      (BitVec.ofNat w m).toNat = v := by
    obtain ⟨rfl, -, hle⟩ := within_eq hm
    rw [BitVec.toNat_ofNat, Nat.mod_eq_of_lt (by omega)]
  match n, h with
  | 0, h => exact read_of_map (read := (·.field 0)) h fun _ => boolCode_of_boolOf
  | 1, h => exact read_of_map (read := (·.field 1)) h fun _ hm => hmask 7 127 hm (by decide)
  | 2, h => exact read_of_within (read := (·.field 2)) h fun _ => rfl
  | 3, h => exact read_of_within (read := (·.field 3)) h fun _ => rfl
  | 4, h => exact read_of_map (read := (·.field 4)) h fun _ hm => hmask 6 63 hm (by decide)
  | 5, h => exact read_of_map (read := (·.field 5)) h fun _ => entryKindCode_of_ofCode

theorem Params.field_of_put {p r : Params} {n : Fin 8} {v : Nat} (h : p.put n v = some r) : r.field n = v := by
  match n, h with
  | 0, h =>
    simp only [Params.put] at h
    split at h
    · obtain rfl := Option.some.inj h
      rfl
    · contradiction
  | 1, h => exact read_of_within (read := (·.field 1)) h fun _ => rfl
  | 2, h => exact read_of_within (read := (·.field 2)) h fun _ => rfl
  | 3, h => exact read_of_map (read := (·.field 3)) h fun _ => policyCode_of_ofCode
  | 4, h => exact read_of_within (read := (·.field 4)) h fun _ => rfl
  | 5, h => exact read_of_within (read := (·.field 5)) h fun _ => rfl
  | 6, h => exact read_of_within (read := (·.field 6)) h fun _ => rfl
  | 7, h => exact read_of_within (read := (·.field 7)) h fun _ => rfl

/-! ## The judged write (R162) -/

section
variable {α : Type} {new : Option α} {relation idle : α → Bool} {validate : α → Result}

/-- A write is refused with a result other than DONE. -/
theorem judgeWrite_error {e : Result} (h : judgeWrite new relation idle validate = .error e) : e ≠ .done := by
  unfold judgeWrite at h
  split at h
  · cases h; exact nofun
  split at h
  · cases h; exact nofun
  split at h
  · cases h; exact nofun
  split at h
  · cases h
  · rename_i hne
    cases h
    exact hne

variable [DecidableEq α] {s : State} {old : α} {commit : α → State}

/-- What a write answered DONE has done. -/
theorem finishWrite_done
    (h : (finishWrite s old (judgeWrite new relation idle validate) commit).2 = .done) :
    ∃ r, new = some r ∧
      (finishWrite s old (judgeWrite new relation idle validate) commit).1 = if r = old then s else commit r := by
  cases hj : judgeWrite new relation idle validate with
  | error e =>
    rw [hj] at h
    exact absurd h (judgeWrite_error hj)
  | ok r => exact ⟨r, (judgeWrite_ok hj).1, rfl⟩

/-- A write answered otherwise has changed nothing (R162). -/
theorem finishWrite_refused {j : Except Result α} (h : (finishWrite s old j commit).2 ≠ .done) :
    (finishWrite s old j commit).1 = s := by
  cases j with
  | error e => rfl
  | ok r => exact absurd rfl h

/-- A field written and answered DONE reads as the value. -/
theorem finishWrite_reads {read : Tables → Nat} {code : α → Nat} {v : Nat}
    (h : (finishWrite s old (judgeWrite new relation idle validate) commit).2 = .done)
    (hcode : ∀ r, new = some r → code r = v) (hold : read s.tables = code old)
    (hcommit : ∀ r, read (commit r).tables = code r) :
    read (finishWrite s old (judgeWrite new relation idle validate) commit).1.tables = v := by
  obtain ⟨r, hr, heq⟩ := finishWrite_done h
  rw [heq, ← hcode r hr]
  split
  · rename_i hsame
    rw [hold, hsame]
  · exact hcommit r

end

/-! ## The tables after a write -/

section
variable (s : State)

theorem State.circuitWritten_tables (k : CircuitIx) (old r : CircuitCfg) :
    (s.circuitWritten k old r).tables = { s.tables with circuits := s.tables.circuits.set k r } := by
  unfold State.circuitWritten
  rw [(State.arbitrate_records _).tables]
  dsimp only
  split
  · rfl
  split
  · split
    · rfl
    · rw [(State.reportClass_works _ k).tables]
      exact (State.notify_gate _ _).tables
  split
  · rfl
  · rfl

theorem State.lineWritten_tables (k : LineIx) (old r : LineCfg) :
    (s.lineWritten k old r).tables = { s.tables with lines := s.tables.lines.set k r } := by
  unfold State.lineWritten
  extract_lets t
  have ht : t.tables = { s.tables with lines := s.tables.lines.set k r } := rfl
  split
  · unfold State.enableLine
    extract_lets _ u v
    exact (((t.putLine_gate k _).trans (u.originate_gate _ _)).trans (v.applyCauses_gate k _)).tables.trans ht
  split
  · exact ((t.putProg_gate k none).trans (State.putLine_gate _ k _)).tables.trans ht
  split
  · exact ht
  split
  · exact (t.gateAfresh_gate k).tables.trans ht
  split
  · exact (t.applyCauses_gate k _).tables.trans ht
  · exact ht

theorem State.filterWritten_tables (k : FilterIx) (old r : FilterCfg) :
    (s.filterWritten k old r).tables = { s.tables with filters := s.tables.filters.set k r } := by
  unfold State.filterWritten
  extract_lets t
  have ht : t.tables = { s.tables with filters := s.tables.filters.set k r } := rfl
  have hwash : ∀ u, WashFrame t u →
      u.arbitrate.tables = { s.tables with filters := s.tables.filters.set k r } := fun u hu =>
    (u.arbitrate_wash.tables.trans hu.tables).trans ht
  split
  · exact hwash _ (((t.startAttempt_wash k).trans (State.rejudgeDp_wash _ k)).trans
      (State.rejudgeHours_wash _ k))
  split
  · exact hwash _ ((t.updFilter_wash k _).trans (State.updArb_wash _ k _))
  split
  · exact ht
  split
  · exact hwash _ (t.rejudgeDp_wash k)
  split
  · exact hwash _ (t.rejudgeHours_wash k)
  · exact hwash _ (.refl t)

/-- The lines that an admission entry names or named are judged afresh, and the Arbiter selects (R61, R106). -/
theorem State.namedAfresh_tables (p : State → LineIx → Prop) [∀ t i, Decidable (p t i)] :
    (s.forLines fun t i => if p t i then t.gateAfresh i else t).arbitrate.tables = s.tables := by
  refine (State.arbitrate_wash _).tables.trans (GateFrame.forLines (fun t i => ?_) s).tables
  split
  · exact t.gateAfresh_gate i
  · exact .refl t

end

/-! ## The written field reads back (R162) -/

section
variable {s : State} {v : Nat}

theorem State.setAdmission_reads {k : Fin 48} {n : Fin 5} (h : (s.setAdmission k n v).2 = .done) :
    (s.setAdmission k n v).1.tables.readField (.admission k n) = v := by
  refine finishWrite_reads (read := (·.readField (.admission k n))) (code := (·.field n)) h
    (fun r hr => AdmissionEntry.field_of_put hr) rfl fun r => ?_
  dsimp only
  split
  · rw [State.namedAfresh_tables]
    simp [Tables.readField]
  · simp [Tables.readField]

theorem State.setTimetable_reads {k : Fin 16} {n : Fin 6} (h : (s.setTimetable k n v).2 = .done) :
    (s.setTimetable k n v).1.tables.readField (.timetable k n) = v := by
  refine finishWrite_reads (read := (·.readField (.timetable k n))) (code := (·.field n)) h
    (fun r hr => TimeEntry.field_of_put hr) rfl fun r => ?_
  dsimp only
  split
  · rw [(State.evaluate_records _).tables]
    simp [Tables.readField]
  · simp [Tables.readField]

/-- A parameter written and answered DONE stands in the tables, and nothing else of them has changed (R104, R139). -/
theorem State.setParam_tables {n : Fin 8} (h : (s.setParam n v).2 = .done) :
    ∃ p, s.tables.params.put n v = some p ∧ (s.setParam n v).1.tables = { s.tables with params := p } := by
  obtain ⟨p, hp, heq⟩ := finishWrite_done h
  refine ⟨p, hp, (congrArg State.tables heq).trans ?_⟩
  split
  · rename_i hsame
    rw [hsame]
  · dsimp only
    split
    iterate 2
      · exact (State.arbitrate_wash _).tables.trans
          (WashFrame.foldl State.judgeTanks_wash (List.finRange 8) _).tables
    iterate 2
      · exact (State.arbitrate_wash _).tables
    all_goals rfl

/-- A write answered DONE leaves the field with the value (R162). -/
theorem State.writeField_reads {ref : FieldRef} (h : (s.writeField ref v).2 = .done) :
    (s.writeField ref v).1.tables.readField ref = v := by
  cases ref with
  | directory k =>
    refine finishWrite_reads (read := (·.readField (.directory k))) (code := fun o => optCode (o.map ixCode)) h
      (fun _ => optCode_of_optIx) rfl fun r => ?_
    rw [(State.arbitrate_wash _).tables, (State.stationAfresh_gate _ _).tables]
    simp [Tables.readField]
  | admission k n => exact State.setAdmission_reads h
  | mapEntry k n =>
    exact finishWrite_reads (read := (·.readField (.mapEntry k n))) (code := (·.field n)) h
      (fun _ => MapEntry.field_of_put) rfl fun r => by simp [Tables.readField]
  | slotSetting k n =>
    exact finishWrite_reads (read := (·.readField (.slotSetting k n))) (code := (·.field n)) h
      (fun _ => SlotSetting.field_of_put) rfl fun r => by simp [Tables.readField]
  | flowInput k =>
    exact finishWrite_reads (read := (·.readField (.flowInput k))) (code := fun o => optCode (o.map ixCode)) h
      (fun _ => optCode_of_optIx) rfl fun r => by simp [Tables.readField]
  | circuit k n =>
    exact finishWrite_reads (read := (·.readField (.circuit k n))) (code := (·.field n)) h
      (fun _ => CircuitCfg.field_of_put) rfl fun r => by
        rw [State.circuitWritten_tables]; simp [Tables.readField]
  | line k n =>
    exact finishWrite_reads (read := (·.readField (.line k n))) (code := (·.field n)) h
      (fun _ => LineCfg.field_of_put) rfl fun r => by rw [State.lineWritten_tables]; simp [Tables.readField]
  | filter k n =>
    exact finishWrite_reads (read := (·.readField (.filter k n))) (code := (·.field n)) h
      (fun _ => FilterCfg.field_of_put) rfl fun r => by
        rw [State.filterWritten_tables]; simp [Tables.readField]
  | step k n =>
    exact finishWrite_reads (read := (·.readField (.step k n))) (code := (·.field n)) h
      (fun _ => StepRec.field_of_put) rfl fun r => by simp [Tables.readField]
  | timetable k n => exact State.setTimetable_reads h
  | param n =>
    obtain ⟨p, hp, htables⟩ := State.setParam_tables h
    have hread : (s.setParam n v).1.tables.readField (.param n) = p.field n := by rw [htables]; rfl
    exact hread.trans (Params.field_of_put hp)

/-- A write not answered DONE changes nothing (R162). -/
theorem State.writeField_refused {ref : FieldRef} (h : (s.writeField ref v).2 ≠ .done) :
    (s.writeField ref v).1 = s := by
  cases ref <;> exact finishWrite_refused h

end

end Sys2Proof.Machine
end

section
/-!
PROOFS. SET_FIELD, GET_FIELD, GET_STATE, READ_CONDITIONS and CLEAR_CONDITIONS (R162, R164, R165, R168), and what the write
that enables a line (R51) and the one that assigns a filter (R114) do.
-/

namespace Sys2Proof.Machine

open Sys2Proof.Safety Sys2Proof.Claims

/-! ## A line that is enabled (R51) -/

/-- In `t` line `i` is as the enabling in `s` leaves it: at rest under the causes that stand, its pump sent 0. -/
structure Enabled (s t : State) (i : LineIx) : Prop where
  state : (t.gate.get i).state = if (t.gate.get i).causes.any then .inhibited else .stopped
  requested : (t.gate.get i).requested = 0
  admitted : (t.gate.get i).admitted = 0
  source : (t.gate.get i).source = .none
  confirmed : (t.gate.get i).confirmed = 0
  fault : (t.gate.get i).fault = none
  lastEcho : (t.gate.get i).lastEcho = none
  confirmation : (t.gate.get i).confirmation = .awaiting (some (s.tables.lines.get i).confirmLimit)
  offers : OffersOnly s t (s.lineEntry i) 0
  others : ∀ j, j ≠ i → t.gate.get j = s.gate.get j

theorem State.enableLine_enabled (s : State) (i : LineIx) : Enabled s (s.enableLine i) i := by
  unfold State.enableLine
  extract_lets _ u v
  have hline : v.gate.get i = { Line.atReset with
      state := .stopped
      confirmation := .awaiting (some (s.tables.lines.get i).confirmLimit) } := by
    rw [(u.originate_quiet _ _).gate]
    exact s.putLine_get i _
  have hd : (v.gate.get i).state ≠ .disabled := by rw [hline]; exact nofun
  have hrequested : (v.gate.get i).requested = 0 := by rw [hline]; rfl
  have hadmitted : (v.gate.get i).admitted = 0 := by rw [hline]; rfl
  obtain ⟨hcauses, hstate, hr, ha, hs, hfault, -⟩ :=
    v.applyCauses_withdrawn i (v.standingCauses i) hd (.inl hrequested)
  obtain ⟨hnone, hconfirmation, hconfirmed, hecho⟩ :=
    v.applyCauses_resting i (v.standingCauses i) hd hrequested hadmitted
  have honly : OnlyLine i s (v.applyCauses i (v.standingCauses i)) :=
    ((s.putLine_onlyLine i _).trans (u.originate_onlyLine i _ _)).trans (v.applyCauses_onlyLine i _)
  have hsent : OffersOnly s v (s.lineEntry i) 0 := offersOnly_of_ports (u.originate_own (u.lineEntry i) 0) rfl rfl
  rw [hline] at hstate hs hfault hconfirmation hconfirmed hecho
  refine ⟨?_, hr, ha, hs.trans (ite_self _), hconfirmed, hfault, hecho, hconfirmation,
    fun g => (hnone g).trans (hsent g), fun j hj => (honly.others j hj).1⟩
  rw [hstate, hcauses]
  rfl

/-- Where the lines' configured fields alone differ, a command goes the same way (R12). -/
theorem offersOnly_withLines {s t : State} {L : Table 12 LineCfg} {k : Option (Fin 48)} {v : Nat}
    (h : OffersOnly { s with tables := { s.tables with lines := L } } t k v) : OffersOnly s t k v := h

/-- The write that enables a line, answered DONE (R51). -/
theorem State.writeField_enables {s : State} {i : LineIx} (h : (s.writeField (.line i 0) 1).2 = .done)
    (hoff : (s.tables.lines.get i).enabled = false) : Enabled s (s.writeField (.line i 0) 1).1 i := by
  obtain ⟨r, hr, heq⟩ := finishWrite_done h
  have hput : r = { s.tables.lines.get i with enabled := true } := (Option.some.inj hr).symm
  have hne : r ≠ s.tables.lines.get i := fun e => by
    have henabled := congrArg LineCfg.enabled e
    rw [hput, hoff] at henabled
    contradiction
  have hwritten : (s.writeField (.line i 0) 1).1 =
      ({ s with tables := { s.tables with lines := s.tables.lines.set i r } } : State).enableLine i := by
    rw [if_neg hne] at heq
    refine heq.trans ?_
    unfold State.lineWritten
    exact if_pos ⟨hoff, by rw [hput]⟩
  have hlimit : ((s.tables.lines.set i r).get i).confirmLimit = (s.tables.lines.get i).confirmLimit := by
    rw [Table.get_set_self, hput]
  obtain ⟨h1, h2, h3, h4, h5, h6, h7, h8, h9, h10⟩ := State.enableLine_enabled
    { s with tables := { s.tables with lines := s.tables.lines.set i r } } i
  rw [hwritten]
  exact ⟨h1, h2, h3, h4, h5, h6, h7, h8.trans (by rw [hlimit]), offersOnly_withLines h9, h10⟩

/-! ## A filter that is assigned (R114) -/

/-- Where the filters' configured fields alone differ, a command waits as it did (R12). -/
theorem offers_withFilters {s t : State} {F : Table 8 FilterCfg} {k : Option (Fin 48)} {v room : Nat}
    (h : Offers { s with tables := { s.tables with filters := F } } t k v room) : Offers s t k v room := h

/-- In `t` filter `f` of `s` is UNUSED with its service attempt running, SERVICE sent to its valves. -/
structure Attempting (s t : State) (f : FilterIx) : Prop where
  state : (t.seq.filters.get f).state = .unused
  attempt : (t.seq.filters.get f).attempt = some (s.tables.filters.get f).travelLimit
  tables : t.tables = s.tables
  offers : Offers s t (s.valveEntry f) 1 1

theorem State.startAttempt_attempting {s : State} {f : FilterIx} (h : (s.seq.filters.get f).state = .unused) :
    Attempting s (s.startAttempt f) f := by
  unfold State.startAttempt
  obtain ⟨u, hu⟩ : ∃ u, u = s.updFilter f fun q => { q with
    attempt := some (s.tables.filters.get f).travelLimit } := ⟨_, rfl⟩
  have hgrows : OwnGrows [] s u := by rw [hu]; exact .of_same rfl rfl
  have hentry : u.entryOf (.valves f) = s.valveEntry f := State.entryOf_congr hgrows.tables (.valves f)
  have hsent := u.originate_gate (s.valveEntry f) 1
  have hoffers := hgrows.offers (.valves f) 1
  rw [hentry] at hoffers
  rw [← hu]
  refine ⟨?_, ?_, hsent.tables.trans hgrows.tables, hoffers⟩
  · rw [hsent.seq, hu]
    simpa using h
  · rw [hsent.seq, hu]
    simp

/-- It stays so while other objects are worked on. -/
theorem Attempting.later {K : PlantObject → Prop} {s t u : State} {f : FilterIx} (h : Attempting s t f)
    (k : Works K t u) (hf : ¬ K (.valves f)) : Attempting s u f := by
  have hfilter := k.filter f hf
  exact ⟨by rw [hfilter]; exact h.state, by rw [hfilter]; exact h.attempt, k.tables.trans h.tables,
    k.offers_later (x := .valves f) h.tables h.offers hf⟩

/-- A grant goes to a filter IN_SERVICE (R105), and so to another. -/
theorem Attempting.arbitrate {s t : State} {f : FilterIx} (h : Attempting s t f) : Attempting s t.arbitrate f := by
  rcases t.arbitrate_cases with hsame | ⟨-, g, hg, hgrant⟩
  · rw [hsame]; exact h
  · have hne : f ≠ g := fun e => by
      have hservice := t.winner_inService g hg
      rw [← e, h.state] at hservice
      contradiction
    rw [hgrant]
    exact h.later (t.grant_works g) hne

/-- The write that assigns a filter, answered DONE (R114). -/
theorem State.writeField_assigns {s : State} {f : FilterIx} (h : (s.writeField (.filter f 0) 1).2 = .done)
    (hoff : (s.tables.filters.get f).assigned = false) (hunused : (s.seq.filters.get f).state = .unused) :
    ((s.writeField (.filter f 0) 1).1.seq.filters.get f).state = .unused ∧
      ((s.writeField (.filter f 0) 1).1.seq.filters.get f).attempt = some (s.tables.filters.get f).travelLimit ∧
      Offers s (s.writeField (.filter f 0) 1).1 (s.valveEntry f) 1 1 := by
  obtain ⟨r, hr, heq⟩ := finishWrite_done h
  have hput : r = { s.tables.filters.get f with assigned := true } := (Option.some.inj hr).symm
  have hne : r ≠ s.tables.filters.get f := fun e => by
    have hassigned := congrArg FilterCfg.assigned e
    rw [hput, hoff] at hassigned
    contradiction
  obtain ⟨t, ht⟩ : ∃ t : State, t = { s with tables := { s.tables with filters := s.tables.filters.set f r } } :=
    ⟨_, rfl⟩
  have hwritten : (s.writeField (.filter f 0) 1).1 =
      (((t.startAttempt f).rejudgeDp f).rejudgeHours f).arbitrate := by
    rw [if_neg hne] at heq
    refine heq.trans ?_
    unfold State.filterWritten
    rw [ht]
    exact if_pos ⟨hoff, by rw [hput]⟩
  have hstarted : Attempting t (t.startAttempt f) f :=
    State.startAttempt_attempting (by rw [ht]; exact hunused)
  have hjudged : Works (fun _ => False) (t.startAttempt f) (((t.startAttempt f).rejudgeDp f).rejudgeHours f) :=
    .of_arbiter _ rfl
  obtain ⟨hstate, hattempt, -, hoffers⟩ := (hstarted.later hjudged id).arbitrate
  rw [hwritten]
  have hlimit : (t.tables.filters.get f).travelLimit = (s.tables.filters.get f).travelLimit := by
    rw [ht]
    dsimp only
    rw [Table.get_set_self, hput]
  rw [hlimit] at hattempt
  subst ht
  exact ⟨hstate, hattempt, offers_withFilters hoffers⟩

/-! ## A parameter (R104, R139) -/

section
variable {α : Type} {new : Option α} {relation idle : α → Bool} {validate : α → Result} {r : α}

/-- A write that passes every check is answered DONE (R162). -/
theorem finishWrite_passes [DecidableEq α] {s : State} {old : α} {commit : α → State} (hnew : new = some r)
    (hrelation : relation r = true) (hidle : idle r = true) (hvalid : validate r = .done) :
    (finishWrite s old (judgeWrite new relation idle validate) commit).2 = .done := by
  simp [finishWrite, judgeWrite, hnew, hrelation, hidle, hvalid]

end

theorem State.setParam_passes {s : State} {n : Fin 8} {v : Nat} {p : Params}
    (hp : s.tables.params.put n v = some p) (hvalid : p.valid s.mode.retained.recoveryCount n = true) :
    (s.setParam n v).2 = .done ∧ (s.setParam n v).1.tables = { s.tables with params := p } := by
  have hdone : (s.setParam n v).2 = .done := finishWrite_passes hp hvalid rfl rfl
  obtain ⟨q, hq, htables⟩ := State.setParam_tables hdone
  rw [hp] at hq
  rw [Option.some.inj hq]
  exact ⟨hdone, htables⟩

/-! ## The requests -/

/-- A SET_FIELD that the Management Unit takes (R162). -/
theorem State.exec_setField {s : State} (hready : Ready s) (tag : Byte) {args : List Byte}
    (hm : s.modeNow.loads = true) (hperiod : ¬ (s.modeNow = .supervised ∧ isPeriodWrite args = true)) :
    exec (.setField tag args) s = .next ((s.setFieldBody args).finish .setField tag) := by
  simp only [exec, execSetField]
  rw [if_neg hperiod, State.manage_runs hready.1 hm hready.2 rfl]

theorem numOf_four (a b c d : Byte) :
    numOf [a, b, c, d] = ((a.toNat * 256 + b.toNat) * 256 + c.toNat) * 256 + d.toNat := by
  simp [numOf]

/-- The body writes the field and answers with the write's result (R162). -/
theorem State.setFieldBody_writes {s : State} {r : FieldRef} {t i f v3 v2 v1 v0 : Byte} (hw : s.mgmt.write = none)
    (hr : FieldRef.of t.toNat i.toNat f.toNat = some r) :
    let v := ((v3.toNat * 256 + v2.toNat) * 256 + v1.toNat) * 256 + v0.toNat
    s.setFieldBody [t, i, f, v3, v2, v1, v0] = (s.writeField r v).1.reply (s.writeField r v).2 := by
  intro v
  simp only [State.setFieldBody, hw, fieldArgs, hr, numOf_four, Option.map_some, Option.isSome_none]
  rfl

theorem State.setFieldBody_busy {s : State} {args : List Byte} (hw : s.mgmt.write ≠ none) :
    s.setFieldBody args = s.reply .busy := by
  unfold State.setFieldBody
  rw [if_pos (Option.isSome_iff_ne_none.2 hw)]

/-- Settles O58: the written field, the refused write, the line enabled, the filter assigned, the parameter, and the rows of
SET_FIELD, GET_FIELD, GET_STATE, READ_CONDITIONS and CLEAR_CONDITIONS. -/
theorem fieldsAndConditionsAreReadAndWritten : Obligations.FieldsAndConditionsAreReadAndWritten := by
  refine ⟨fun s r v h => State.writeField_reads h, fun s r v h => State.writeField_refused h, ?_, ?_, ?_, ?_, ?_, ?_,
    ?_, ?_⟩
  · intro s i h hoff t l
    have henabled := State.writeField_enables h hoff
    exact ⟨henabled.state, henabled.requested, henabled.admitted, henabled.source, henabled.confirmed,
      henabled.fault, henabled.lastEcho, henabled.confirmation, henabled.offers, henabled.others⟩
  · intro s f h hoff hunused t
    exact State.writeField_assigns h hoff hunused
  · intro s n v p hp hvalid
    exact State.setParam_passes hp hvalid
  · intro s tag t i f v3 v2 v1 v0 r hready hm hperiod hr v
    have hnot : ¬ (s.modeNow = .supervised ∧ isPeriodWrite [t, i, f, v3, v2, v1, v0] = true) := by
      rintro ⟨hs, hp⟩
      rcases hperiod with h | h
      · rw [h] at hp
        contradiction
      · exact h hs
    rw [State.exec_setField hready tag hm hnot]
    refine ⟨fun hw => ?_, fun hw => ?_⟩
    · rw [State.setFieldBody_writes hw hr]
      rfl
    · rw [State.setFieldBody_busy hw]
      rfl
  · intro s tag t i f r hready hr
    simp only [exec, execGetField]
    rw [State.manage_runs (modeOk := s.modeNow.reads) hready.1 rfl hready.2 (show readArgs [t, i, f] = some r from hr)]
    rfl
  · intro s tag k i n items data hready hitems hdata
    have hargs : s.getStateArgs [k, i, n] = some data := by
      rw [State.getStateArgs, hitems]
      exact hdata
    simp only [exec, execGetState]
    rw [State.manage_runs (modeOk := s.modeNow.reads) hready.1 rfl hready.2 hargs]
    rfl
  · intro s tag hready
    simp only [exec, execReadConditions]
    rw [manage_noArgs (modeOk := s.modeNow.reads) hready _ _ rfl]
    rfl
  · intro s tag hready hm
    simp only [exec, execClearConditions]
    rw [manage_noArgs hready _ _ hm]
    rfl

end Sys2Proof.Machine
end
